-- ==== Sys2Proof/Word.lean ====
section
/-!
DEFINITION. The byte and the byte sequence (spec/00_scope.md R8). Every other number of the engine is
a natural number (R7, R44).
-/

namespace Sys2Proof

/-- R8: an 8-bit unsigned value 0..255. -/
abbrev Byte := BitVec 8

/-- R8: a finite sequence of bytes in transmission order; the first element is sent or received first. -/
abbrev Bytes := List Byte

end Sys2Proof
end

