-- ==== Sys2Proof/Config.lean ====
section
/-!
DEFINITION. What an implementation fixes (spec/00_scope.md R6): the constant table `K` (spec/30_encoding.md
R80, R81), the OPEN parameters, the counts the source states, and the one free value of the model.
-/

namespace Sys2Proof

/-- R80: the protocol constant table `K`. -/
structure KTable where
  getSync       : Byte
  readSign      : Byte
  setDevice     : Byte
  enterProgmode : Byte
  leaveProgmode : Byte
  loadAddress   : Byte
  progPage      : Byte
  readPage      : Byte
  /-- the start-of-frame marker -/
  sof           : Byte
  ok0           : Byte
  ok1           : Byte
  /-- the frame terminator -/
  eop           : Byte
  /-- the fixed sub-command byte of program-page and read-page -/
  memtype       : Byte
  deriving DecidableEq, Repr

/-- R80, R84: the OK acknowledgment `[K.OK0, K.OK1]`. -/
def KTable.okBytes (k : KTable) : Bytes := [k.ok0, k.ok1]

/-- R80: the eight opcodes, in the order of R80's table. -/
def KTable.opcodes (k : KTable) : Bytes :=
  [k.getSync, k.readSign, k.setDevice, k.enterProgmode, k.leaveProgmode, k.loadAddress, k.progPage,
    k.readPage]

/-- R81: the reference table `K_REF`. PRESUMED: the spec marks these values as general knowledge of
STK500v1 (log entry 6). -/
def Config.kRef : KTable where
  getSync       := 0x30
  readSign      := 0x75
  setDevice     := 0x42
  enterProgmode := 0x50
  leaveProgmode := 0x51
  loadAddress   := 0x55
  progPage      := 0x64
  readPage      := 0x74
  sof           := 0x14
  ok0           := 0x14
  ok1           := 0x10
  eop           := 0x20
  memtype       := 0x46

/-- R6, R204: the final-page clipping rule; `literal` is the default. -/
inductive ClipRule where
  | literal
  | fixed
  deriving DecidableEq, Repr

/-- R6, R206: the count field of READ_PAGE; `pageSize` is the default. -/
inductive ReadPageCount where
  | pageSize
  | sliceLength
  deriving DecidableEq, Repr

/-- R6, R117: end-of-stream before completion; `shortBuffer` is the default. -/
inductive EosMode where
  | shortBuffer
  | error
  deriving DecidableEq, Repr

/-- R6: the parameters of one model instance. No rule writes them (R20). -/
structure Params where
  k                  : KTable
  clipRule           : ClipRule
  readPageCount      : ReadPageCount
  verifyTrailerCheck : Bool
  eosMode            : EosMode
  deriving DecidableEq, Repr

/-- R6's default for every parameter that has one, and `K_REF` for `K` (log entries 5 and 6). -/
def Config.defaultParams : Params where
  k                  := Config.kRef
  clipRule           := .literal
  readPageCount      := .pageSize
  verifyTrailerCheck := false
  eosMode            := .shortBuffer

/-- R6, R209: the inter-page settle delay, 4 ticks. -/
def Config.settleTicks : Nat := 4

/-- R6, R22: the number of set-device configuration bytes. -/
def Config.devparamCount : Nat := 20

/-- The free value of the model (log entry 8): what the receive buffer may hold after a
BufferOverflow, whose content the spec leaves unspecified (R37, D13, U9). It has no body, so no
proof can know a value of it. -/
opaque Config.freeBytes : Nat → Bytes

end Sys2Proof
end

