-- ==== Sys2Proof/Syntax.lean ====
section
/-!
DEFINITION. The instructions of spec/opcode_table.json: the eight wire commands (spec/42_commands.md) and
the nine input events of the port (spec/30_encoding.md R96), with the operand types they carry.
-/

namespace Sys2Proof

/-- R96, R231: the opaque cause that READ_FAIL and WACK_FAIL carry. The token is never inspected
(log entry 11). -/
structure Cause where
  token : Nat
  deriving DecidableEq, Repr

/-- R32: the two forms of a CommandRequest. -/
inductive ReqForm where
  | raw
  | prebuilt
  deriving DecidableEq, Repr

/-- R32: the CommandRequest. Both length fields are independent options (conflict C1). -/
structure Request where
  form     : ReqForm
  opcode   : Byte
  payload  : Bytes
  term     : Option Byte
  frameIn  : Bytes
  expBytes : Option Bytes
  expLen   : Option Nat
  timeout  : Nat
  deriving DecidableEq, Repr

/-- R22: the BoardProfile as adapted: signature bytes, page size, device parameters in wire order. -/
structure Profile where
  sig       : Bytes
  p         : Nat
  devparams : Bytes
  deriving DecidableEq, Repr

/-- R180: the options of START_FLASH. -/
structure Options where
  attempts : Nat
  timeout  : Nat
  debug    : Bool
  deriving DecidableEq, Repr

/-- One constructor per row of spec/opcode_table.json. -/
inductive Instr where
  /-- GET_SYNC (R160) -/
  | getSync
  /-- READ_SIGN (R161) -/
  | readSign
  /-- SET_DEVICE d0 .. d19 (R162) -/
  | setDevice (params : Bytes)
  /-- ENTER_PROGMODE (R163) -/
  | enterProgmode
  /-- LEAVE_PROGMODE (R164) -/
  | leaveProgmode
  /-- LOAD_ADDRESS w (R165): the word address; two bytes of it reach the wire (R88) -/
  | loadAddress (w : Nat)
  /-- PROG_PAGE s (R166): the page bytes -/
  | progPage (data : Bytes)
  /-- READ_PAGE c (R167): the count sent; the data length awaited is `|SLICE|`, which is not on the wire -/
  | readPage (count : Nat)
  /-- TICK, tag 0x0 (R119, R209) -/
  | tick
  /-- CHUNK(c), tag 0x1 (R111) -/
  | chunk (c : Bytes)
  /-- EOS, tag 0x2 (R117) -/
  | eos
  /-- READ_FAIL(x), tag 0x3 (R118) -/
  | readFail (x : Cause)
  /-- WACK_OK, tag 0x4 (R143) -/
  | wackOk
  /-- WACK_FAIL(x), tag 0x5 (R144) -/
  | wackFail (x : Cause)
  /-- START_FLASH(img, prof, opts), tag 0x8 (R180) -/
  | startFlash (img : Bytes) (prof : Profile) (opts : Options)
  /-- START_SYNC(a, t), tag 0x9 (R181) -/
  | startSync (attempts timeout : Nat)
  /-- START_COMMAND(r), tag 0xA (R182) -/
  | startCommand (req : Request)
  deriving DecidableEq, Repr

end Sys2Proof
end

