-- ==== Sys2Proof/WellFormed.lean ====
section
/-!
DEFINITION. Which instructions are well-formed, that is, have an encoding that gives every operand back:
SET_DEVICE and START_FLASH carry exactly 20 device parameters (R22, R162, R180), and a value sent as two
bytes fits sixteen bits (R88).
-/

namespace Sys2Proof

/-- R22, R180: `DEVPARAMS` is exactly 20 bytes. -/
def Profile.wf (p : Profile) : Bool := decide (p.devparams.length = Config.devparamCount)

/-- The operand checks of each instruction. START_COMMAND's request is not checked (R89, R182). -/
def Instr.wf (i : Instr) : Bool :=
  match i with
  | .getSync => true
  | .readSign => true
  | .setDevice d => decide (d.length = Config.devparamCount)
  | .enterProgmode => true
  | .leaveProgmode => true
  | .loadAddress w => decide (w < 2 ^ 16)
  | .progPage d => decide (d.length < 2 ^ 16)
  | .readPage c => decide (c < 2 ^ 16)
  | .tick => true
  | .chunk _ => true
  | .eos => true
  | .readFail _ => true
  | .wackOk => true
  | .wackFail _ => true
  | .startFlash _ p _ => p.wf
  | .startSync _ _ => true
  | .startCommand _ => true

end Sys2Proof
end

