-- ==== Sys2Proof/Decode.lean ====
section
/-!
DEFINITION. The two encodings of spec/30_encoding.md and their decoders.

The *wire encoding* (R82, R85): `encodeFrame` and `decodeFrame` relate a wire command to the frame the
engine writes, terminator and sub-command byte included. `splitFrames` is the transmit-stream decoder of
R86.

The *port encoding* (R96): `encode` and `decode` relate an instruction to the bytes of one record on the
input port. A record's first byte is the code opcode_table.json gives its row: the 4-bit tag of an input
event, or the `K_REF` opcode of a wire command. The layout of the operands is the model's own, because
the spec gives only their types (log entries 2 and 3).
-/

namespace Sys2Proof

/-! ### Byte splits (R8, R88) -/

/-- R8: `lo8(n) = n & 0xFF`. -/
def lo8 (n : Nat) : Byte := BitVec.ofNat 8 n

/-- R8: `hi8(n) = (n >> 8) & 0xFF`. -/
def hi8 (n : Nat) : Byte := BitVec.ofNat 8 (n >>> 8)

/-- The 16-bit value of a high and a low byte. -/
def word16 (hi lo : Byte) : Nat := 256 * hi.toNat + lo.toNat

/-- R80: a constant table is well-formed when `OK0 = SOF` and the eight opcodes are pairwise distinct. -/
def KTable.wf (k : KTable) : Bool := decide (k.ok0 = k.sof) && decide k.opcodes.Nodup

/-! ### Operand fields of a port record (the model's own layout, log entry 2) -/

/-- Why a decoder rejects bytes. -/
inductive Reject where
  /-- nothing to decode -/
  | noBytes
  /-- R96: a tag 0x6, 0x7 or 0xB to 0xF -/
  | reservedTag (tag : Nat)
  /-- a first byte that is neither a tag nor one of the eight opcodes -/
  | unknownOpcode (b : Byte)
  /-- operand bytes that are missing or that no encoding has -/
  | badOperands
  deriving DecidableEq, Repr

/-- A natural number as base-128 digits, least significant first; a digit with more to follow has 128
added. `fuel` bounds the number of digits. -/
def writeNatDigits : Nat → Nat → Bytes
  | 0, n => [BitVec.ofNat 8 n]
  | fuel + 1, n =>
    if n < 128 then [BitVec.ofNat 8 n]
    else BitVec.ofNat 8 (128 + n % 128) :: writeNatDigits fuel (n / 128)

/-- The field of a natural number. -/
def writeNat (n : Nat) : Bytes := writeNatDigits n n

/-- Reads a natural number; a last digit 0 after another digit is refused, so that a number has one
encoding. -/
def readNat : Bytes → Option (Nat × Bytes)
  | [] => none
  | b :: r =>
    if b.toNat < 128 then some (b.toNat, r)
    else
      match readNat r with
      | none => none
      | some (n, r') => if n = 0 then none else some (b.toNat - 128 + 128 * n, r')

/-- Reads `n` bytes. -/
def readExact (n : Nat) (bs : Bytes) : Option (Bytes × Bytes) :=
  if n ≤ bs.length then some (bs.take n, bs.drop n) else none

/-- Reads one byte. -/
def readByte : Bytes → Option (Byte × Bytes)
  | [] => none
  | b :: r => some (b, r)

/-- The field of a byte sequence: its length, then its bytes. -/
def writeBytes (b : Bytes) : Bytes := writeNat b.length ++ b

/-- Reads a byte sequence. -/
def readBytes (bs : Bytes) : Option (Bytes × Bytes) :=
  match readNat bs with
  | none => none
  | some (n, r) => readExact n r

/-- The field of a truth value. -/
def writeBool (b : Bool) : Bytes := [if b then 1 else 0]

/-- Reads a truth value. -/
def readBool : Bytes → Option (Bool × Bytes)
  | [] => none
  | b :: r => if b = 0 then some (false, r) else if b = 1 then some (true, r) else none

/-- The field of an optional value: absent 0, present 1 and the value's field. -/
def writeOption {α : Type} (w : α → Bytes) : Option α → Bytes
  | none => [0]
  | some a => 1 :: w a

/-- Reads an optional value. -/
def readOption {α : Type} (r : Bytes → Option (α × Bytes)) (bs : Bytes) :
    Option (Option α × Bytes) :=
  match readBool bs with
  | none => none
  | some (false, t) => some (none, t)
  | some (true, t) =>
    match r t with
    | none => none
    | some (a, t') => some (some a, t')

/-- The field of a request's form: RAW 0, PREBUILT 1. -/
def writeForm : ReqForm → Bytes
  | .raw => writeBool false
  | .prebuilt => writeBool true

/-- Reads a request's form. -/
def readForm (bs : Bytes) : Option (ReqForm × Bytes) :=
  match readBool bs with
  | none => none
  | some (b, r) => some (if b then .prebuilt else .raw, r)

/-- The fields of a CommandRequest, in R32's order. -/
def writeRequest (q : Request) : Bytes :=
  writeForm q.form ++ [q.opcode] ++ writeBytes q.payload ++ writeOption (fun b => [b]) q.term ++
    writeBytes q.frameIn ++ writeOption writeBytes q.expBytes ++ writeOption writeNat q.expLen ++
    writeNat q.timeout

/-- Reads a CommandRequest. -/
def readRequest (bs : Bytes) : Option (Request × Bytes) := do
  let (form, bs) ← readForm bs
  let (opcode, bs) ← readByte bs
  let (payload, bs) ← readBytes bs
  let (term, bs) ← readOption readByte bs
  let (frameIn, bs) ← readBytes bs
  let (expBytes, bs) ← readOption readBytes bs
  let (expLen, bs) ← readOption readNat bs
  let (timeout, bs) ← readNat bs
  return ({ form, opcode, payload, term, frameIn, expBytes, expLen, timeout }, bs)

/-- The fields of a profile: signature, page size, and the 20 device parameters with no length. -/
def writeProfile (p : Profile) : Bytes := writeBytes p.sig ++ writeNat p.p ++ p.devparams

/-- Reads a profile. -/
def readProfile (bs : Bytes) : Option (Profile × Bytes) := do
  let (sig, bs) ← readBytes bs
  let (p, bs) ← readNat bs
  let (devparams, bs) ← readExact Config.devparamCount bs
  return ({ sig, p, devparams }, bs)

/-- The fields of START_FLASH's options. -/
def writeOptions (o : Options) : Bytes := writeNat o.attempts ++ writeNat o.timeout ++ writeBool o.debug

/-- Reads START_FLASH's options. -/
def readOptions (bs : Bytes) : Option (Options × Bytes) := do
  let (attempts, bs) ← readNat bs
  let (timeout, bs) ← readNat bs
  let (debug, bs) ← readBool bs
  return ({ attempts, timeout, debug }, bs)

/-! ### The port decoder -/

/-- Turns the operands read by a field reader into a decoded instruction. -/
def withOperands {α : Type} (f : α → Instr) (o : Option (α × Bytes)) : Except Reject (Instr × Bytes) :=
  match o with
  | none => .error .badOperands
  | some (a, r) => .ok (f a, r)

/-- Reads two bytes in transmission order. -/
def readPair (bs : Bytes) : Option ((Byte × Byte) × Bytes) := do
  let (a, bs) ← readByte bs
  let (b, bs) ← readByte bs
  return ((a, b), bs)

/-- R64, R88: a byte count, high byte first, then that many bytes. -/
def readCounted (bs : Bytes) : Option (Bytes × Bytes) := do
  let ((hi, lo), bs) ← readPair bs
  readExact (word16 hi lo) bs

/-- R181: attempts, then timeout. -/
def readNatPair (bs : Bytes) : Option ((Nat × Nat) × Bytes) := do
  let (a, bs) ← readNat bs
  let (t, bs) ← readNat bs
  return ((a, t), bs)

/-- R180: image, profile, options. -/
def readFlash (bs : Bytes) : Option ((Bytes × Profile × Options) × Bytes) := do
  let (img, bs) ← readBytes bs
  let (prof, bs) ← readProfile bs
  let (opts, bs) ← readOptions bs
  return ((img, prof, opts), bs)

/-- Decodes the operands of the record whose first byte has code `c` (R96, R100). -/
def decodeBody (b : Byte) (r : Bytes) : Except Reject (Instr × Bytes) :=
  match b.toNat with
  | 0x0 => .ok (.tick, r)
  | 0x1 => withOperands .chunk (readBytes r)
  | 0x2 => .ok (.eos, r)
  | 0x3 => withOperands (fun n => .readFail ⟨n⟩) (readNat r)
  | 0x4 => .ok (.wackOk, r)
  | 0x5 => withOperands (fun n => .wackFail ⟨n⟩) (readNat r)
  | 0x8 => withOperands (fun a => .startFlash a.1 a.2.1 a.2.2) (readFlash r)
  | 0x9 => withOperands (fun a => .startSync a.1 a.2) (readNatPair r)
  | 0xA => withOperands .startCommand (readRequest r)
  | 0x30 => .ok (.getSync, r)
  | 0x75 => .ok (.readSign, r)
  | 0x42 => withOperands .setDevice (readExact Config.devparamCount r)
  | 0x50 => .ok (.enterProgmode, r)
  | 0x51 => .ok (.leaveProgmode, r)
  | 0x55 => withOperands (fun a => .loadAddress (word16 a.2 a.1)) (readPair r)
  | 0x64 => withOperands .progPage (readCounted r)
  | 0x74 => withOperands (fun a => .readPage (word16 a.1 a.2)) (readPair r)
  | n => if n < 16 then .error (.reservedTag n) else .error (.unknownOpcode b)

/-- The port decoder: the first record of the bytes and what follows it, or the reason of the
rejection. -/
def decode : Bytes → Except Reject (Instr × Bytes)
  | [] => .error .noBytes
  | b :: r => decodeBody b r

/-- The code of opcode_table.json: an event's tag (R96) or a command's `K_REF` opcode (R81, R100). -/
def Instr.tableCode : Instr → Byte
  | .getSync => 0x30
  | .readSign => 0x75
  | .setDevice _ => 0x42
  | .enterProgmode => 0x50
  | .leaveProgmode => 0x51
  | .loadAddress _ => 0x55
  | .progPage _ => 0x64
  | .readPage _ => 0x74
  | .tick => 0x0
  | .chunk _ => 0x1
  | .eos => 0x2
  | .readFail _ => 0x3
  | .wackOk => 0x4
  | .wackFail _ => 0x5
  | .startFlash _ _ _ => 0x8
  | .startSync _ _ => 0x9
  | .startCommand _ => 0xA

/-- The operand bytes of an instruction's port record. -/
def Instr.operandBytes : Instr → Bytes
  | .getSync => []
  | .readSign => []
  | .setDevice d => d
  | .enterProgmode => []
  | .leaveProgmode => []
  | .loadAddress w => [lo8 w, hi8 w]
  | .progPage d => [hi8 d.length, lo8 d.length] ++ d
  | .readPage c => [hi8 c, lo8 c]
  | .tick => []
  | .chunk c => writeBytes c
  | .eos => []
  | .readFail x => writeNat x.token
  | .wackOk => []
  | .wackFail x => writeNat x.token
  | .startFlash img p o => writeBytes img ++ writeProfile p ++ writeOptions o
  | .startSync a t => writeNat a ++ writeNat t
  | .startCommand q => writeRequest q

/-- The port record of an instruction. -/
def encode (i : Instr) : Bytes := i.tableCode :: i.operandBytes

/-! ### The wire encoding of the eight commands (R82, R85, R86) -/

/-- R85: the opcode and the payload of a wire command; an input event has none. -/
def Instr.wireParts (k : KTable) : Instr → Option (Byte × Bytes)
  | .getSync => some (k.getSync, [])
  | .readSign => some (k.readSign, [])
  | .setDevice d => some (k.setDevice, d)
  | .enterProgmode => some (k.enterProgmode, [])
  | .leaveProgmode => some (k.leaveProgmode, [])
  | .loadAddress w => some (k.loadAddress, [lo8 w, hi8 w])
  | .progPage d => some (k.progPage, [hi8 d.length, lo8 d.length, k.memtype] ++ d)
  | .readPage c => some (k.readPage, [hi8 c, lo8 c, k.memtype])
  | .tick => none
  | .chunk _ => none
  | .eos => none
  | .readFail _ => none
  | .wackOk => none
  | .wackFail _ => none
  | .startFlash _ _ _ => none
  | .startSync _ _ => none
  | .startCommand _ => none

/-- R82, R85: the frame of a wire command, `[opcode] ++ payload ++ [K.EOP]`. -/
def encodeFrame (k : KTable) (i : Instr) : Option Bytes :=
  match i.wireParts k with
  | none => none
  | some (op, payload) => some ([op] ++ payload ++ [k.eop])

/-- Reads one byte that must be `b`. -/
def expectByte (b : Byte) : Bytes → Option Bytes
  | [] => none
  | c :: r => if c = b then some r else none

/-- Closes a frame: the terminator must follow the operands. -/
def closeFrame (k : KTable) (i : Instr) (r : Bytes) : Except Reject (Instr × Bytes) :=
  match expectByte k.eop r with
  | none => .error .badOperands
  | some r' => .ok (i, r')

/-- Reads a count (high byte first) and the sub-command byte after it. -/
def readCountMem (k : KTable) (bs : Bytes) : Option (Nat × Bytes) := do
  let ((hi, lo), bs) ← readPair bs
  let bs ← expectByte k.memtype bs
  return (word16 hi lo, bs)

/-- R85, R86: the first frame of a transmit stream and what follows it. -/
def decodeFrame (k : KTable) : Bytes → Except Reject (Instr × Bytes)
  | [] => .error .noBytes
  | b :: r =>
    if b = k.getSync then closeFrame k .getSync r
    else if b = k.readSign then closeFrame k .readSign r
    else if b = k.setDevice then
      match readExact Config.devparamCount r with
      | none => .error .badOperands
      | some (d, r') => closeFrame k (.setDevice d) r'
    else if b = k.enterProgmode then closeFrame k .enterProgmode r
    else if b = k.leaveProgmode then closeFrame k .leaveProgmode r
    else if b = k.loadAddress then
      match readPair r with
      | none => .error .badOperands
      | some ((lo, hi), r') => closeFrame k (.loadAddress (word16 hi lo)) r'
    else if b = k.progPage then
      match readCountMem k r with
      | none => .error .badOperands
      | some (n, r') =>
        match readExact n r' with
        | none => .error .badOperands
        | some (d, r'') => closeFrame k (.progPage d) r''
    else if b = k.readPage then
      match readCountMem k r with
      | none => .error .badOperands
      | some (c, r') => closeFrame k (.readPage c) r'
    else .error (.unknownOpcode b)

/-- Splits a transmit stream into at most `fuel` frames. -/
def splitFramesFuel (k : KTable) : Nat → Bytes → Option (List Instr)
  | _, [] => some []
  | 0, _ :: _ => none
  | fuel + 1, b :: r =>
    match decodeFrame k (b :: r) with
    | .error _ => none
    | .ok (i, r') =>
      match splitFramesFuel k fuel r' with
      | none => none
      | some is => some (i :: is)

/-- R86: the decoder of the transmit stream: the commands whose frames make up the stream. -/
def splitFrames (k : KTable) (stream : Bytes) : Option (List Instr) :=
  splitFramesFuel k stream.length stream

/-! ### The opcode table's words -/

/-- The bytes of a table word, lowest byte first. -/
def wordBytes : Nat → Nat → Bytes
  | 0, _ => []
  | n + 1, w => BitVec.ofNat 8 w :: wordBytes n (w / 256)

/-- The record a table word stands for: its bytes, then operand bytes of zero. The longest record of
zeros is START_FLASH's, 27 bytes, so 31 zeros are enough. -/
def tableRecord (nbits w : Nat) : Bytes := wordBytes ((nbits + 7) / 8) w ++ List.replicate 31 0

/-- The instruction the decoder reads from a table word, all its further bits zero. -/
def decodeTableWord (nbits w : Nat) : Option Instr :=
  match decode (tableRecord nbits w) with
  | .ok (i, _) => some i
  | .error _ => none

/-- The bytes of a table word's record that its decoding uses. -/
def tableRecordUsed (nbits w : Nat) : Bytes :=
  match decode (tableRecord nbits w) with
  | .ok (_, rest) => (tableRecord nbits w).take ((tableRecord nbits w).length - rest.length)
  | .error _ => wordBytes ((nbits + 7) / 8) w

end Sys2Proof
end

