-- ==== Sys2Proof/Machine/State.lean ====
section
/-!
DEFINITION. The state record of spec/10_state.md (R20 to R42), the error records of spec/60_exceptions.md
(R230, R231), the output events of spec/30_encoding.md R97, and the reset values of R48. Every type is
plain data.
-/

namespace Sys2Proof.Machine

/-- R24: MODE. -/
inductive Mode where
  | idle
  | flash
  | syncOp
  | cmdOp
  deriving DecidableEq, Repr

/-- R24: the codes of MODE. -/
def Mode.code : Mode → Nat
  | .idle => 0
  | .flash => 1
  | .syncOp => 2
  | .cmdOp => 3

/-- R24: STEP. -/
inductive FlashStep where
  | none
  | sync1
  | sync2
  | sync3
  | signature
  | setOptions
  | enterProgmode
  | upload
  | verify
  | exitProgmode
  deriving DecidableEq, Repr

/-- R24: the codes of STEP. -/
def FlashStep.code : FlashStep → Nat
  | .none => 0
  | .sync1 => 1
  | .sync2 => 2
  | .sync3 => 3
  | .signature => 4
  | .setOptions => 5
  | .enterProgmode => 6
  | .upload => 7
  | .verify => 8
  | .exitProgmode => 9

/-- R25: PG, the paged-transfer phase. -/
inductive Pg where
  | none
  | loadAddr
  | pageCmd
  | settle
  deriving DecidableEq, Repr

/-- R25: the codes of PG. -/
def Pg.code : Pg → Nat
  | .none => 0
  | .loadAddr => 1
  | .pageCmd => 2
  | .settle => 3

/-- R31: TX, the transceiver phase. -/
inductive Tx where
  | idle
  | writing
  | receiving
  deriving DecidableEq, Repr

/-- R31: the codes of TX. -/
def Tx.code : Tx → Nat
  | .idle => 0
  | .writing => 1
  | .receiving => 2

/-- R231: the direction of a transport error. -/
inductive Dir where
  | write
  | read
  deriving DecidableEq, Repr

/-- R231: the error record. `cmd` is `none` while the receiver raises it (R146 sets it). -/
inductive Err where
  | transport (dir : Dir) (cmd : Option Bytes) (cause : Cause)
  | timeout (cmd : Option Bytes) (elapsed : Nat)
  | overflow (cmd : Option Bytes) (count limit : Nat)
  | mismatch (cmd : Bytes) (expected actual : Bytes)
  | syncExhausted (attempts : Nat) (cause : Err)
  | stepFailure (step : FlashStep) (inner : Err)
  | incomplete (cmd : Option Bytes) (count limit : Nat)
  deriving DecidableEq, Repr

/-- R230: the error kinds. -/
inductive ErrKind where
  | transportError
  | timeout
  | bufferOverflow
  | responseMismatch
  | syncExhausted
  | stepFailure
  | incompleteResponse
  deriving DecidableEq, Repr

/-- R230: the codes of the error kinds. -/
def ErrKind.code : ErrKind → Nat
  | .transportError => 1
  | .timeout => 2
  | .bufferOverflow => 3
  | .responseMismatch => 4
  | .syncExhausted => 5
  | .stepFailure => 6
  | .incompleteResponse => 7

/-- R42: the outcome of a step in TIMELINE. -/
inductive StepOutcome where
  | ok
  | err (kind : ErrKind)
  deriving DecidableEq, Repr

/-- R40: what a successful operation returns: `true` for FLASH, the response bytes otherwise. -/
inductive OkValue where
  | flag (b : Bool)
  | bytes (b : Bytes)
  deriving DecidableEq, Repr

/-- R40, R97: the result of an operation, `OK(v)` or `ERR(e)`. -/
inductive OpResult where
  | ok (v : OkValue)
  | err (e : Err)
  deriving DecidableEq, Repr

/-- R116, R145, R147: the result of a receive or of a command, `OK(buf)` or `ERR(e)`. -/
inductive Reply where
  | ok (buf : Bytes)
  | err (e : Err)
  deriving DecidableEq, Repr

/-- R250: the trace events. -/
inductive TraceEvent where
  | stepStarted (s : FlashStep)
  | stepSucceeded (s : FlashStep)
  | stepFailed (s : FlashStep) (k : ErrKind)
  deriving DecidableEq, Repr

/-- R97: the output events. -/
inductive Output where
  | write (frame : Bytes)
  | readReq
  | readCancel
  | opDone (r : OpResult)
  | trace (ev : TraceEvent)
  deriving DecidableEq, Repr

/-- R97: the tags of the output events. -/
def Output.tag : Output → Nat
  | .write _ => 0
  | .readReq => 1
  | .readCancel => 2
  | .opDone _ => 3
  | .trace _ => 4

/-- R20: the engine state. The first field and the last three are the model's own, not registers of the
spec. -/
structure State where
  /-- the parameters of R6, constant for the instance (log entry 5) -/
  params    : Params
  /-- R21 IMAGE -/
  image     : Bytes
  /-- R22 PROFILE -/
  profile   : Profile
  /-- R23 ATTEMPTS -/
  attempts  : Nat
  /-- R23 TIMEOUT -/
  timeout   : Nat
  /-- R23 DEBUG -/
  debug     : Bool
  /-- R24 MODE -/
  mode      : Mode
  /-- R24 STEP -/
  flashStep : FlashStep
  /-- R25 PG -/
  pg        : Pg
  /-- R26 SYNC_TRY -/
  syncTry   : Nat
  /-- R26 SYNC_LAST -/
  syncLast  : Option Err
  /-- R27 PAGEADDR -/
  pageAddr  : Nat
  /-- R27 WORDADDR -/
  wordAddr  : Nat
  /-- R28 SLICE -/
  slice     : Bytes
  /-- R29 SETTLE -/
  settle    : Nat
  /-- R31 TX -/
  tx        : Tx
  /-- R32 REQ -/
  req       : Request
  /-- R33 FRAME -/
  frame     : Bytes
  /-- R34 RX_ACTIVE -/
  rxActive  : Bool
  /-- R35 RX_PEND -/
  rxPend    : Bool
  /-- R36 RX_SYNCED -/
  rxSynced  : Bool
  /-- R37 RX_BUF -/
  rxBuf     : Bytes
  /-- R38 RX_EXP -/
  rxExp     : Nat
  /-- R39 RX_TO -/
  rxTo      : Nat
  /-- R39 RX_EL -/
  rxEl      : Nat
  /-- R40 RESULT; `none` is the spec's NONE -/
  result    : Option OpResult
  /-- R41 SIG_RESP -/
  sigResp   : Bytes
  /-- R42 TIMELINE -/
  timeline  : List (FlashStep × StepOutcome)
  /-- the port records offered by the environment and not yet consumed (log entry 1) -/
  inq       : Bytes
  /-- every output event emitted so far, in order (R71, log entry 7) -/
  outs      : List Output
  /-- the counter of the free value (log entry 8) -/
  freeCtr   : Nat
  deriving DecidableEq, Repr

/-- R48: the reset value of REQ. -/
def resetRequest : Request where
  form     := .raw
  opcode   := 0
  payload  := []
  term     := none
  frameIn  := []
  expBytes := none
  expLen   := none
  timeout  := 0

/-- R48, R260: the state after power-on reset. `params`, `inq`, `outs` and `freeCtr` are the model's own
(log entries 5, 1, 7 and 8). -/
def State.reset : State where
  params    := Config.defaultParams
  image     := []
  profile   := { sig := [], p := 0, devparams := List.replicate Config.devparamCount 0 }
  attempts  := 0
  timeout   := 0
  debug     := false
  mode      := .idle
  flashStep := .none
  pg        := .none
  syncTry   := 0
  syncLast  := none
  pageAddr  := 0
  wordAddr  := 0
  slice     := []
  settle    := 0
  tx        := .idle
  req       := resetRequest
  frame     := []
  rxActive  := false
  rxPend    := false
  rxSynced  := false
  rxBuf     := []
  rxExp     := 0
  rxTo      := 0
  rxEl      := 0
  result    := none
  sigResp   := []
  timeline  := []
  inq       := []
  outs      := []
  freeCtr   := 0

/-- Why the machine stops with a fault. The spec has no fault state of its own (93, end of section 1). -/
inductive Fault where
  /-- Raised by the dispatch of a command result, by the page loop and by a step's end, in a control
  state (MODE, STEP, PG) for which the spec writes no rule: "No other combination is reachable" (R183,
  R30). Safe: no run from reset reaches it (log entry 10). -/
  | unreachableControl
  deriving DecidableEq, Repr

/-- Why no step exists. -/
inductive Refusal where
  /-- Raised by an arm of `exec` whose instruction has no meaning yet. Safe. -/
  | notModelled (mnemonic : String)
  /-- Raised by an instruction in a state that does not enable it (R98, R140; U12). Safe: the spec gives
  it no step. -/
  | notEnabled
  /-- Raised by START_FLASH and SET_DEVICE with device parameters that are not 20 bytes (R162, R180).
  Safe: the spec refuses it at the port. -/
  | illFormedInput
  /-- Raised by the step of an instance whose constant table is not well-formed (R80). Safe. -/
  | illFormedTable
  /-- Raised by the step when the port offers no event (R10). Safe: the engine waits (log entry 1). -/
  | noInput
  /-- Raised by the step when the port's bytes are no record: a reserved tag (R96) or bytes no encoding
  has. Safe. -/
  | undecodable (r : Reject)
  deriving DecidableEq, Repr

/-- The outcome of a meaning. -/
abbrev Res := Host.Outcome State Fault Refusal

end Sys2Proof.Machine
end

