-- ==== Sys2Proof/Machine/Operands.lean ====
section
/-!
DEFINITION. The operands the engine computes: the image slice (spec/44_paged_transfer.md R203, R204), the
command requests of spec/42_commands.md (R160 to R167), the frame and the response length of a request
(spec/41_command_transceiver.md R141, R142), and the Verify check (R207).
-/

namespace Sys2Proof.Machine

/-! ### The image space (R60) -/

/-- R60: reading one byte of the image space; an address outside `0 .. L-1` has none. -/
def readImageByte (img : Bytes) (a : Nat) : Option Byte := img[a]?

/-- R9, R60: `MemRead(a, n) = IMAGE[a : a+n]`. -/
def memRead (img : Bytes) (a n : Nat) : Bytes := (img.drop a).take n

/-- The cells of the image space from address `a` on, one for each byte. -/
def imageCellsFrom : Nat → Bytes → List Host.Cell
  | _, [] => []
  | a, b :: r => (a, b) :: imageCellsFrom (a + 1) r

/-- R60: the image space as address and byte pairs (log entry 9). -/
def imageCells (img : Bytes) : List Host.Cell := imageCellsFrom 0 img

/-- The canonical form of a list of cells: addresses strictly rising. Every listed entry differs from
what an unlisted address reads as, since an unlisted address has no byte. -/
def Memory.wf (cells : List Host.Cell) : Bool := decide ((cells.map Prod.fst).Pairwise (· < ·))

/-- R204: `clip_end(a)`, the exclusive end of the slice that starts at `a`, for image length `l` and
page size `p`. -/
def clipEnd (rule : ClipRule) (l p a : Nat) : Nat :=
  match rule with
  | .literal => if l - a < p then l - 1 else a + p
  | .fixed => min (a + p) l

/-- R203: the slice of the current iteration, `MemRead(PAGEADDR, clip_end(PAGEADDR) - PAGEADDR)`. -/
def currentSlice (s : State) : Bytes :=
  memRead s.image s.pageAddr
    (clipEnd s.params.clipRule s.image.length s.profile.p s.pageAddr - s.pageAddr)

/-- R202: `PAGEADDR >> 1`. -/
def wordAddrOf (pageAddr : Nat) : Nat := pageAddr >>> 1

/-- R206: the count READ_PAGE sends. -/
def readCount (s : State) : Nat :=
  match s.params.readPageCount with
  | .pageSize => s.profile.p
  | .sliceLength => s.slice.length

/-- R207: `verify_ok(buf, s)`: the length, the middle bytes, and under VERIFY_TRAILER_CHECK the last
byte. -/
def verifyOk (p : Params) (buf s : Bytes) : Bool :=
  decide (buf.length = s.length + 2) && decide ((buf.drop 1).take s.length = s) &&
    (!p.verifyTrailerCheck || decide (buf[s.length + 1]? = some p.k.ok1))

/-- R203: the frame a correct device sends for slice `s`, the `expected` field of a verify mismatch. -/
def verifyExpected (k : KTable) (s : Bytes) : Bytes := [k.sof] ++ s ++ [k.ok1]

/-! ### Requests (R160 to R167) -/

/-- A RAW request that expects the OK acknowledgment exactly (R84). -/
def ackRequest (s : State) (opcode : Byte) (payload : Bytes) : Request where
  form     := .raw
  opcode   := opcode
  payload  := payload
  term     := none
  frameIn  := []
  expBytes := some s.params.k.okBytes
  expLen   := none
  timeout  := s.timeout

/-- A RAW request that expects `n` bytes and compares no content (R161, R167). -/
def lengthRequest (s : State) (opcode : Byte) (payload : Bytes) (n : Nat) : Request where
  form     := .raw
  opcode   := opcode
  payload  := payload
  term     := none
  frameIn  := []
  expBytes := none
  expLen   := some n
  timeout  := s.timeout

/-- R160. -/
def getSyncRequest (s : State) : Request := ackRequest s s.params.k.getSync []

/-- R161: the response length is `1 + |PROFILE.SIG| + 1`. -/
def readSignRequest (s : State) : Request :=
  lengthRequest s s.params.k.readSign [] (1 + s.profile.sig.length + 1)

/-- R162. -/
def setDeviceRequest (d : Bytes) (s : State) : Request := ackRequest s s.params.k.setDevice d

/-- R163. -/
def enterProgmodeRequest (s : State) : Request := ackRequest s s.params.k.enterProgmode []

/-- R164. -/
def leaveProgmodeRequest (s : State) : Request := ackRequest s s.params.k.leaveProgmode []

/-- R165: low byte, then high byte. -/
def loadAddressRequest (w : Nat) (s : State) : Request :=
  ackRequest s s.params.k.loadAddress [lo8 w, hi8 w]

/-- R166: the count is the slice length, high byte first. -/
def progPageRequest (data : Bytes) (s : State) : Request :=
  ackRequest s s.params.k.progPage ([hi8 data.length, lo8 data.length, s.params.k.memtype] ++ data)

/-- R167: the count `c`, high byte first; `|SLICE| + 2` bytes are awaited. -/
def readPageRequest (c : Nat) (s : State) : Request :=
  lengthRequest s s.params.k.readPage [hi8 c, lo8 c, s.params.k.memtype] (s.slice.length + 2)

/-! ### A request's frame and response length -/

/-- R142: `build_frame(req)`. -/
def buildFrame (k : KTable) (req : Request) : Bytes :=
  match req.form with
  | .raw => [req.opcode] ++ req.payload ++ [req.term.getD k.eop]
  | .prebuilt => req.frameIn

/-- R141: `resp_len(req)`: the explicit length first, then the length of the expected bytes, then 0. -/
def respLen (req : Request) : Nat :=
  match req.expLen with
  | some n => n
  | none =>
    match req.expBytes with
    | some b => b.length
    | none => 0

/-- R184: the attempt budget, `max(ATTEMPTS, 1)`. -/
def syncBudget (s : State) : Nat := max s.attempts 1

end Sys2Proof.Machine
end

