-- ==== Sys2Proof/Machine/Flags.lean ====
section
/-!
DEFINITION. The status flags of spec/10_state.md R46: the marker scan that sets RX_SYNCED
(spec/40_frame_receiver.md R112, R113), the conditions that enable an input event (spec/30_encoding.md R96,
R98) or a command (R140), and the kind of an error (spec/60_exceptions.md R230).
-/

namespace Sys2Proof.Machine

/-- R112: `scan(c)`: the new RX_SYNCED and the bytes kept. Unsynchronized, everything before the first
marker is dropped; synchronized, the whole chunk is data. -/
def scan (sof : Byte) (synced : Bool) (c : Bytes) : Bool × Bytes :=
  if synced then (true, c)
  else
    match c.dropWhile (fun b => b != sof) with
    | [] => (false, [])
    | b :: r => (true, b :: r)

/-- R111 to R113: the part of a CHUNK step before the comparison: RX_PEND is cleared, the chunk scanned,
and the bytes kept appended. -/
def acceptChunk (c : Bytes) (s : State) : State :=
  let kept := scan s.params.k.sof s.rxSynced c
  { s with
    rxPend := false
    rxSynced := kept.1
    rxBuf := if kept.1 then s.rxBuf ++ kept.2 else s.rxBuf }

/-- R37, R43: the buffer after a BufferOverflow is unspecified; it stays among the buffers R43 admits,
which are empty or begin with the marker (log entry 8). -/
def unspecifiedBuffer (sof : Byte) (free : Bytes) : Bytes :=
  match free with
  | [] => []
  | _ :: r => sof :: r

/-- R37, D13: forgets the buffer after a BufferOverflow and advances the free counter. -/
def forgetBuffer (s : State) : State :=
  { s with
    rxBuf := unspecifiedBuffer s.params.k.sof (Config.freeBytes s.freeCtr)
    freeCtr := s.freeCtr + 1 }

/-- R140, R183, R208: where a command may be issued: an operation runs, no command is in flight, and no
settle delay is being waited out (log entry 3). -/
def canIssue (s : State) : Bool :=
  decide (s.tx = .idle) && decide (s.mode ≠ .idle) && decide (s.pg ≠ .settle)

/-- R96, R98: whether an instruction is enabled. -/
def enabled (i : Instr) (s : State) : Bool :=
  match i with
  | .getSync => canIssue s
  | .readSign => canIssue s
  | .setDevice _ => canIssue s
  | .enterProgmode => canIssue s
  | .leaveProgmode => canIssue s
  | .loadAddress _ => canIssue s
  | .progPage _ => canIssue s
  | .readPage _ => canIssue s
  | .tick => true
  | .chunk _ => s.rxPend
  | .eos => s.rxPend
  | .readFail _ => s.rxPend
  | .wackOk => decide (s.tx = .writing)
  | .wackFail _ => decide (s.tx = .writing)
  | .startFlash _ _ _ => decide (s.mode = .idle)
  | .startSync _ _ => decide (s.mode = .idle)
  | .startCommand _ => decide (s.mode = .idle)

/-- Runs `f` where the instruction is enabled; elsewhere there is no step (R98). -/
def whenEnabled (i : Instr) (s : State) (f : State → Res) : Res :=
  if enabled i s then f s else .refused .notEnabled

/-- R230: `kind(e)`. -/
def Err.kind : Err → ErrKind
  | .transport _ _ _ => .transportError
  | .timeout _ _ => .timeout
  | .overflow _ _ _ => .bufferOverflow
  | .mismatch _ _ _ => .responseMismatch
  | .syncExhausted _ _ => .syncExhausted
  | .stepFailure _ _ => .stepFailure
  | .incomplete _ _ _ => .incompleteResponse

/-- R146: `with_cmd(e, f)` sets the command of an error the receiver raised; every other field, and an
error that already names its command, is kept. -/
def withCmd (e : Err) (f : Bytes) : Err :=
  match e with
  | .transport d _ x => .transport d (some f) x
  | .timeout _ n => .timeout (some f) n
  | .overflow _ c l => .overflow (some f) c l
  | .incomplete _ c l => .incomplete (some f) c l
  | .mismatch c x a => .mismatch c x a
  | .syncExhausted n x => .syncExhausted n x
  | .stepFailure st x => .stepFailure st x

end Sys2Proof.Machine
end

