-- ==== Sys2Proof/Machine/Ops.lean ====
section
/-!
DEFINITION. The named operations over the state: emitting an output (spec/00_scope.md R9, R97), tracing
(spec/60_exceptions.md R250), issuing a command (spec/41_command_transceiver.md R140), starting a receive
(spec/40_frame_receiver.md R110), and the end of an operation. `stepFail` and `finish` are the engine's
analogue of taking an exception (R191, R194, R241); there is no return from one (R242).
-/

namespace Sys2Proof.Machine

/-- R9: `emit O`. -/
def emit (o : Output) (s : State) : State := { s with outs := s.outs ++ [o] }

/-- R250: `trace(ev)`: a TRACE output only when DEBUG. -/
def traceEvent (ev : TraceEvent) (s : State) : State :=
  if s.debug then emit (.trace ev) s else s

/-- R140: `cmd_issue(req)`. -/
def cmdIssue (req : Request) (s : State) : State :=
  emit (.write (buildFrame s.params.k req))
    { s with req := req, frame := buildFrame s.params.k req, tx := .writing }

/-- R110: `rx_start(n, t)`. -/
def rxStart (n t : Nat) (s : State) : State :=
  emit .readReq
    { s with
      rxActive := true, rxSynced := false, rxBuf := [], rxExp := n, rxTo := t, rxEl := 0,
      tx := .receiving, rxPend := true }

/-- R115: `continue_read()`. -/
def continueRead (s : State) : State := emit .readReq { s with rxPend := true }

/-- R194: `done(r)` ends the operation. -/
def finish (r : OpResult) (s : State) : State :=
  emit (.opDone r) { s with result := some r, mode := .idle, pg := .none }

/-- R192, R191: TIMELINE is appended with the current step's outcome. -/
def recordOutcome (o : StepOutcome) (s : State) : State :=
  { s with timeline := s.timeline ++ [(s.flashStep, o)] }

/-- R191, R201, R210: the page phase is left. -/
def leavePage (s : State) : State := { s with pg := .none }

/-- R191, R241: `step_fail(e)` aborts the flash. -/
def stepFail (e : Err) (s : State) : State :=
  finish (.err (.stepFailure s.flashStep e))
    (leavePage (traceEvent (.stepFailed s.flashStep e.kind) (recordOutcome (.err e.kind) s)))

/-- R185: `STEP <- s`. -/
def setStep (st : FlashStep) (s : State) : State := { s with flashStep := st }

/-- R185: the first two lines of `begin_step(s)`: STEP is written and the start traced. -/
def enterStep (st : FlashStep) (s : State) : State :=
  traceEvent (.stepStarted st) (setStep st s)

/-- R192: the first two lines of `step_ok()`: TIMELINE is appended and the success traced. -/
def stepSucceeded (s : State) : State :=
  traceEvent (.stepSucceeded s.flashStep) (recordOutcome .ok s)

/-- R147: `TX <- TX_IDLE`. -/
def commandOver (s : State) : State := { s with tx := .idle }

/-- R111, R117 to R119: the outstanding read is answered or withdrawn. -/
def readOver (s : State) : State := { s with rxPend := false }

/-- R116: the receiver stops. -/
def receiverOff (s : State) : State := { s with rxActive := false, rxPend := false }

/-- R119: one tick of the receive timer. -/
def countElapsed (s : State) : State := { s with rxEl := s.rxEl + 1 }

/-- R209: one tick of the settle delay. -/
def countSettle (s : State) : State := { s with settle := s.settle + 1 }

/-- R184: the first attempt of a Sync invocation. -/
def firstAttempt (s : State) : State := { s with syncTry := 1, syncLast := none }

/-- R184: the error of a failed attempt is kept. -/
def attemptFailed (e : Err) (s : State) : State := { s with syncLast := some e }

/-- R184: the next attempt is counted. -/
def nextAttempt (s : State) : State := { s with syncTry := s.syncTry + 1 }

/-- R186: the read-signature response is kept. -/
def keepSignature (buf : Bytes) (s : State) : State := { s with sigResp := buf }

/-- R200: the cursor starts at 0. -/
def rewindCursor (s : State) : State := { s with pageAddr := 0 }

/-- R202: the word address is computed and the iteration enters PG_LOADADDR. -/
def addressPage (s : State) : State := { s with wordAddr := wordAddrOf s.pageAddr, pg := .loadAddr }

/-- R203: the slice is read and the iteration enters PG_PAGECMD. -/
def fetchSlice (s : State) : State := { s with slice := currentSlice s, pg := .pageCmd }

/-- R208: `advance()` moves the cursor and starts the settle delay. -/
def advance (s : State) : State :=
  { s with pageAddr := s.pageAddr + s.slice.length, pg := .settle, settle := 0 }

end Sys2Proof.Machine
end

