-- ==== Sys2Proof/Machine/Commands.lean ====
section
/-!
DEFINITION. The eight wire commands (spec/42_commands.md R160 to R167): the issue of each, which the
sequencer runs inside a step, and its meaning as an instruction, which issues it where a command may be
issued (spec/41_command_transceiver.md R140).
-/

namespace Sys2Proof.Machine

/-- R160: issues GET_SYNC. -/
def issueGetSync (s : State) : State := cmdIssue (getSyncRequest s) s

/-- R161: issues READ_SIGN. -/
def issueReadSign (s : State) : State := cmdIssue (readSignRequest s) s

/-- R162: issues SET_DEVICE. -/
def issueSetDevice (d : Bytes) (s : State) : State := cmdIssue (setDeviceRequest d s) s

/-- R163: issues ENTER_PROGMODE. -/
def issueEnterProgmode (s : State) : State := cmdIssue (enterProgmodeRequest s) s

/-- R164: issues LEAVE_PROGMODE. -/
def issueLeaveProgmode (s : State) : State := cmdIssue (leaveProgmodeRequest s) s

/-- R165: issues LOAD_ADDRESS `w`. -/
def issueLoadAddress (w : Nat) (s : State) : State := cmdIssue (loadAddressRequest w s) s

/-- R166: issues PROG_PAGE. -/
def issueProgPage (data : Bytes) (s : State) : State := cmdIssue (progPageRequest data s) s

/-- R167: issues READ_PAGE `c`. -/
def issueReadPage (c : Nat) (s : State) : State := cmdIssue (readPageRequest c s) s

/-- GET_SYNC (R160). -/
def execGetSync (s : State) : Res := whenEnabled .getSync s fun s => .next (issueGetSync s)

/-- READ_SIGN (R161). -/
def execReadSign (s : State) : Res := whenEnabled .readSign s fun s => .next (issueReadSign s)

/-- SET_DEVICE (R162); its operand is exactly 20 bytes. -/
def execSetDevice (d : Bytes) (s : State) : Res :=
  if d.length = Config.devparamCount then
    whenEnabled (.setDevice d) s fun s => .next (issueSetDevice d s)
  else .refused .illFormedInput

/-- ENTER_PROGMODE (R163). -/
def execEnterProgmode (s : State) : Res :=
  whenEnabled .enterProgmode s fun s => .next (issueEnterProgmode s)

/-- LEAVE_PROGMODE (R164). -/
def execLeaveProgmode (s : State) : Res :=
  whenEnabled .leaveProgmode s fun s => .next (issueLeaveProgmode s)

/-- LOAD_ADDRESS (R165); a word address of `2^16` or more is sent modulo `2^16` (R88). -/
def execLoadAddress (w : Nat) (s : State) : Res :=
  whenEnabled (.loadAddress w) s fun s => .next (issueLoadAddress w s)

/-- PROG_PAGE (R166). -/
def execProgPage (data : Bytes) (s : State) : Res :=
  whenEnabled (.progPage data) s fun s => .next (issueProgPage data s)

/-- READ_PAGE (R167). -/
def execReadPage (c : Nat) (s : State) : Res :=
  whenEnabled (.readPage c) s fun s => .next (issueReadPage c s)

end Sys2Proof.Machine
end

