-- ==== Sys2Proof/Machine/Sequencer.lean ====
section
/-!
DEFINITION. The programming state machine (spec/43_state_machine.md R183 to R194) and its paged loop
(spec/44_paged_transfer.md R200 to R212). The mutual recursion of `step_ok`, `begin_step` and the loop is
written bottom up, from the last step to the first: a step's begin calls only later steps, so no
recursion is left.
-/

namespace Sys2Proof.Machine

/-! ### The begin of a step and the page loop -/

/-- R202: `load_address()`. -/
def loadAddress (s : State) : State :=
  issueLoadAddress (addressPage s).wordAddr (addressPage s)

/-- R201: `page_next()`; `pageDone` is what `page_done` runs (R211). -/
def pageNext (pageDone : State → Res) (s : State) : Res :=
  if s.image.length ≤ s.pageAddr then pageDone (leavePage s) else .next (loadAddress s)

/-- R200: `page_begin()`. -/
def pageBegin (pageDone : State → Res) (s : State) : Res := pageNext pageDone (rewindCursor s)

/-- R184: `sync_begin()`. -/
def syncBegin (s : State) : State := issueGetSync (firstAttempt s)

/-- R185 for EXIT_PROGMODE. -/
def beginExitProgmode (s : State) : State := issueLeaveProgmode (enterStep .exitProgmode s)

/-- R192 for VERIFY: the step succeeded and EXIT_PROGMODE begins. -/
def verifyStepOk (s : State) : Res := .next (beginExitProgmode (stepSucceeded s))

/-- R185 for VERIFY. -/
def beginVerify (s : State) : Res := pageBegin verifyStepOk (enterStep .verify s)

/-- R192 for UPLOAD: the step succeeded and VERIFY begins. -/
def uploadStepOk (s : State) : Res := beginVerify (stepSucceeded s)

/-- R185 for UPLOAD. -/
def beginUpload (s : State) : Res := pageBegin uploadStepOk (enterStep .upload s)

/-- R185: `begin_step(s)`. NONE is no flash step and no rule begins it. -/
def beginStep (st : FlashStep) (s : State) : Res :=
  match st with
  | .none => .fault .unreachableControl
  | .sync1 => .next (syncBegin (enterStep .sync1 s))
  | .sync2 => .next (syncBegin (enterStep .sync2 s))
  | .sync3 => .next (syncBegin (enterStep .sync3 s))
  | .signature => .next (issueReadSign (enterStep .signature s))
  | .setOptions => .next (issueSetDevice s.profile.devparams (enterStep .setOptions s))
  | .enterProgmode => .next (issueEnterProgmode (enterStep .enterProgmode s))
  | .upload => beginUpload s
  | .verify => beginVerify s
  | .exitProgmode => .next (beginExitProgmode s)

/-- R192: `step_ok()`. -/
def stepOk (s : State) : Res :=
  match s.flashStep with
  | .none => .fault .unreachableControl
  | .sync1 => beginStep .sync2 (stepSucceeded s)
  | .sync2 => beginStep .sync3 (stepSucceeded s)
  | .sync3 => beginStep .signature (stepSucceeded s)
  | .signature => beginStep .setOptions (stepSucceeded s)
  | .setOptions => beginStep .enterProgmode (stepSucceeded s)
  | .enterProgmode => beginStep .upload (stepSucceeded s)
  | .upload => beginStep .verify (stepSucceeded s)
  | .verify => beginStep .exitProgmode (stepSucceeded s)
  | .exitProgmode => .next (finish (.ok (.flag true)) (stepSucceeded s))

/-! ### Sync (R184, R193) -/

/-- R193: `sync_done(r)`. -/
def syncDone (r : Reply) (s : State) : Res :=
  if s.mode = .syncOp then
    match r with
    | .ok buf => .next (finish (.ok (.bytes buf)) s)
    | .err e => .next (finish (.err e) s)
  else
    match r with
    | .ok _ => stepOk s
    | .err e => .next (stepFail e s)

/-- R184: `sync_on_result(r)`. -/
def syncOnResult (r : Reply) (s : State) : Res :=
  match r with
  | .ok buf => syncDone (.ok buf) s
  | .err e =>
    if s.syncTry < syncBudget s then
      .next (issueGetSync (nextAttempt (attemptFailed e s)))
    else syncDone (.err (.syncExhausted (syncBudget s) e)) (attemptFailed e s)

/-! ### The results of the other steps -/

/-- R186: `on_signature(r)`. -/
def onSignature (r : Reply) (s : State) : Res :=
  match r with
  | .ok buf => stepOk (keepSignature buf s)
  | .err e => .next (stepFail e s)

/-- R187, R188: `on_simple(r)`. -/
def onSimple (r : Reply) (s : State) : Res :=
  match r with
  | .ok _ => stepOk s
  | .err e => .next (stepFail e s)

/-- R190: `on_exit(r)`. -/
def onExit (r : Reply) (s : State) : Res :=
  match r with
  | .ok _ => stepOk s
  | .err e => .next (stepFail e s)

/-! ### The page loop's results (R203 to R212) -/

/-- R212: `page_fail(e)`. -/
def pageFail (e : Err) (s : State) : Res := .next (stepFail e s)

/-- R205: `program_page()`. -/
def programPage (s : State) : State := issueProgPage s.slice s

/-- R206: `read_page()`. -/
def readPage (s : State) : State := issueReadPage (readCount s) s

/-- R203, PG_LOADADDR: the slice is read and the page command of the step issued. -/
def pageAddressed (s : State) : State :=
  if s.flashStep = .upload then programPage (fetchSlice s) else readPage (fetchSlice s)

/-- R203, PG_PAGECMD: Verify checks the response; then the cursor advances. -/
def pageTransferred (buf : Bytes) (s : State) : Res :=
  if s.flashStep = .verify ∧ verifyOk s.params buf s.slice = false then
    pageFail (.mismatch s.frame (verifyExpected s.params.k s.slice) buf) s
  else .next (advance s)

/-- R203: `page_on_cmd(r)`. -/
def pageOnCmd (r : Reply) (s : State) : Res :=
  match r with
  | .err e => pageFail e s
  | .ok buf =>
    match s.pg with
    | .loadAddr => .next (pageAddressed s)
    | .pageCmd => pageTransferred buf s
    | .none => .fault .unreachableControl
    | .settle => .fault .unreachableControl

/-- R210: `settle_done()`; a finished loop ends in `step_ok()` (R211). -/
def settleDone (s : State) : Res := pageNext stepOk (leavePage s)

/-- R209: a TICK of the settle delay. -/
def settleTick (s : State) : Res :=
  if Config.settleTicks ≤ s.settle + 1 then settleDone (countSettle s)
  else .next (countSettle s)

/-! ### Dispatch of command results -/

/-- R183: `seq_on_cmd(r)`. The combinations the rule does not list are unreachable (R30). -/
def seqOnCmd (r : Reply) (s : State) : Res :=
  match s.mode with
  | .idle => .fault .unreachableControl
  | .cmdOp =>
    match r with
    | .ok buf => .next (finish (.ok (.bytes buf)) s)
    | .err e => .next (finish (.err e) s)
  | .syncOp => syncOnResult r s
  | .flash =>
    match s.flashStep with
    | .none => .fault .unreachableControl
    | .sync1 => syncOnResult r s
    | .sync2 => syncOnResult r s
    | .sync3 => syncOnResult r s
    | .signature => onSignature r s
    | .setOptions => onSimple r s
    | .enterProgmode => onSimple r s
    | .upload => pageOnCmd r s
    | .verify => pageOnCmd r s
    | .exitProgmode => onExit r s

end Sys2Proof.Machine
end

