-- ==== Sys2Proof/Machine/Transceiver.lean ====
section
/-!
DEFINITION. The command transceiver (spec/41_command_transceiver.md R143 to R147): the completion of a
command, the check of a response, and the meanings of WACK_OK and WACK_FAIL.
-/

namespace Sys2Proof.Machine

/-- R147: `cmd_complete(r)`. -/
def cmdComplete (r : Reply) (s : State) : Res := seqOnCmd r (commandOver s)

/-- R145, R146: the command's result for the receiver's result: an exact comparison where the request
has expected bytes, and the command's frame added to an error. -/
def checkReply (req : Request) (frame : Bytes) (r : Reply) : Reply :=
  match r with
  | .ok buf =>
    match req.expBytes with
    | some e => if buf = e then .ok buf else .err (.mismatch frame e buf)
    | none => .ok buf
  | .err e => .err (withCmd e frame)

/-- R145: `tx_on_rx(r)`. -/
def txOnRx (r : Reply) (s : State) : Res := cmdComplete (checkReply s.req s.frame r) s

/-- WACK_OK (R143): the receiver starts. -/
def execWackOk (s : State) : Res :=
  whenEnabled .wackOk s fun s => .next (rxStart (respLen s.req) s.req.timeout s)

/-- WACK_FAIL (R144): the write failure fails the command; no receive starts. -/
def execWackFail (x : Cause) (s : State) : Res :=
  whenEnabled (.wackFail x) s fun s => cmdComplete (.err (.transport .write (some s.frame) x)) s

end Sys2Proof.Machine
end

