-- ==== Sys2Proof/Machine/Receiver.lean ====
section
/-!
DEFINITION. The frame receiver (spec/40_frame_receiver.md R111 to R120): the comparison and the end of a
receive, and the meanings of CHUNK, EOS, READ_FAIL and TICK.
-/

namespace Sys2Proof.Machine

/-- R116: `rx_finish(r)`. -/
def rxFinish (r : Reply) (s : State) : Res := txOnRx r (receiverOff s)

/-- R114: `compare()`: overflow first, then equality, else the receive goes on. -/
def compareLength (s : State) : Res :=
  if s.rxExp < s.rxBuf.length then
    rxFinish (.err (.overflow none s.rxBuf.length s.rxExp)) (forgetBuffer s)
  else if s.rxBuf.length = s.rxExp then rxFinish (.ok s.rxBuf) s
  else .next (continueRead s)

/-- CHUNK (R111). -/
def execChunk (c : Bytes) (s : State) : Res :=
  whenEnabled (.chunk c) s fun s => compareLength (acceptChunk c s)

/-- R117: what EOS makes of the buffer assembled so far. -/
def eosReply (s : State) : Reply :=
  match s.params.eosMode with
  | .shortBuffer => .ok s.rxBuf
  | .error => .err (.incomplete none s.rxBuf.length s.rxExp)

/-- EOS (R117). -/
def execEos (s : State) : Res :=
  whenEnabled .eos s fun s => rxFinish (eosReply s) (readOver s)

/-- READ_FAIL (R118). -/
def execReadFail (x : Cause) (s : State) : Res :=
  whenEnabled (.readFail x) s fun s =>
    rxFinish (.err (.transport .read none x)) (readOver s)

/-- R119, R120: a TICK of the receive timer: it counts only with a non-zero timeout, and fires on the
tick that reaches it. -/
def timeoutTick (s : State) : Res :=
  if s.rxTo = 0 then .next s
  else if s.rxTo ≤ s.rxEl + 1 then
    rxFinish (.err (.timeout none (s.rxEl + 1)))
      (emit .readCancel (readOver (countElapsed s)))
  else .next (countElapsed s)

/-- TICK (R119, R209): the settle delay, else the receive timer, else no effect (D26). -/
def execTick (s : State) : Res :=
  whenEnabled .tick s fun s =>
    if s.pg = .settle then settleTick s
    else if s.rxActive then timeoutTick s
    else .next s

end Sys2Proof.Machine
end

