-- ==== Sys2Proof/Machine/Caller.lean ====
section
/-!
DEFINITION. The caller operations (spec/43_state_machine.md R180 to R182).
-/

namespace Sys2Proof.Machine

/-- R180: the registers a new ProgrammingSession starts from. -/
def openSession (img : Bytes) (prof : Profile) (opts : Options) (s : State) : State :=
  { s with
    image := img, profile := prof
    attempts := opts.attempts, timeout := opts.timeout, debug := opts.debug
    mode := .flash, result := none
    timeline := [], sigResp := []
    pageAddr := 0, wordAddr := 0, slice := [], settle := 0, pg := .none }

/-- START_FLASH (R180): refused at the port where the profile has not 20 device parameters. -/
def execStartFlash (img : Bytes) (prof : Profile) (opts : Options) (s : State) : Res :=
  if prof.wf then
    whenEnabled (.startFlash img prof opts) s fun s => beginStep .sync1 (openSession img prof opts s)
  else .refused .illFormedInput

/-- R181: the registers START_SYNC writes before its first attempt. -/
def openSync (a t : Nat) (s : State) : State :=
  { s with
    attempts := a, timeout := t, debug := false
    mode := .syncOp, flashStep := .none, result := none }

/-- START_SYNC (R181). -/
def execStartSync (a t : Nat) (s : State) : Res :=
  whenEnabled (.startSync a t) s fun s =>
    .next (syncBegin (openSync a t s))

/-- R182: the registers START_COMMAND writes before the command is issued. -/
def openCommand (s : State) : State :=
  { s with debug := false, mode := .cmdOp, flashStep := .none, result := none }

/-- START_COMMAND (R182): the request is not checked (R89). -/
def execStartCommand (q : Request) (s : State) : Res :=
  whenEnabled (.startCommand q) s fun s =>
    .next (cmdIssue q (openCommand s))

end Sys2Proof.Machine
end

