-- ==== Sys2Proof/Machine/Dispatch.lean ====
section
/-!
DEFINITION. One arm per instruction of spec/opcode_table.json, each a call of its meaning.
-/

namespace Sys2Proof.Machine

def exec (i : Instr) (s : State) : Host.Outcome State Fault Refusal :=
  match i with
  | .getSync => Sys2Proof.Machine.execGetSync s
  | .readSign => Sys2Proof.Machine.execReadSign s
  | .setDevice d => Sys2Proof.Machine.execSetDevice d s
  | .enterProgmode => Sys2Proof.Machine.execEnterProgmode s
  | .leaveProgmode => Sys2Proof.Machine.execLeaveProgmode s
  | .loadAddress w => Sys2Proof.Machine.execLoadAddress w s
  | .progPage d => Sys2Proof.Machine.execProgPage d s
  | .readPage c => Sys2Proof.Machine.execReadPage c s
  | .tick => Sys2Proof.Machine.execTick s
  | .chunk c => Sys2Proof.Machine.execChunk c s
  | .eos => Sys2Proof.Machine.execEos s
  | .readFail x => Sys2Proof.Machine.execReadFail x s
  | .wackOk => Sys2Proof.Machine.execWackOk s
  | .wackFail x => Sys2Proof.Machine.execWackFail x s
  | .startFlash img prof opts => Sys2Proof.Machine.execStartFlash img prof opts s
  | .startSync a t => Sys2Proof.Machine.execStartSync a t s
  | .startCommand q => Sys2Proof.Machine.execStartCommand q s

end Sys2Proof.Machine
end

