-- ==== Sys2Proof/Machine/Fetch.lean ====
section
/-!
DEFINITION. Fetching: the next record of the input port, and the control position at which an instruction
is enabled, which is where a table word is placed for the very next step (log entry 4).
-/

namespace Sys2Proof.Machine

/-- The next record of the port and what stays behind it. -/
def fetch (s : State) : Except Reject (Instr × Bytes) := decode s.inq

/-- The state after the record is taken from the port. -/
def consumed (rest : Bytes) (s : State) : State := { s with inq := rest }

/-- Why no instruction can be fetched. -/
def fetchRefusal (r : Reject) : Refusal :=
  match r with
  | .noBytes => .noInput
  | .reservedTag t => .undecodable (.reservedTag t)
  | .unknownOpcode b => .undecodable (.unknownOpcode b)
  | .badOperands => .undecodable .badOperands

/-- R30, row IDLE: no operation runs. -/
def atIdle (s : State) : State :=
  { s with mode := .idle, pg := .none, tx := .idle, rxActive := false, rxPend := false }

/-- The point of a CMD_OP operation at which its command is issued (R182 before its last line). -/
def atIssue (s : State) : State :=
  { s with
    mode := .cmdOp, flashStep := .none, pg := .none, tx := .idle, rxActive := false, rxPend := false
    result := none }

/-- R30, row CMD_OP: a WRITE awaits its acknowledgment. -/
def atWriting (s : State) : State := { atIssue s with tx := .writing }

/-- R30, row CMD_OP: a receive of no bytes so far awaits its chunk. -/
def atReceiving (s : State) : State :=
  { atIssue s with tx := .receiving, rxActive := true, rxPend := true, rxSynced := false, rxBuf := [] }

/-- The state with the control position moved, where it must be, to one that enables the instruction. -/
def positionFor (i : Instr) (s : State) : State :=
  if enabled i s then s
  else
    match i with
    | .getSync => atIssue s
    | .readSign => atIssue s
    | .setDevice _ => atIssue s
    | .enterProgmode => atIssue s
    | .leaveProgmode => atIssue s
    | .loadAddress _ => atIssue s
    | .progPage _ => atIssue s
    | .readPage _ => atIssue s
    | .tick => s
    | .chunk _ => atReceiving s
    | .eos => atReceiving s
    | .readFail _ => atReceiving s
    | .wackOk => atWriting s
    | .wackFail _ => atWriting s
    | .startFlash _ _ _ => atIdle s
    | .startSync _ _ => atIdle s
    | .startCommand _ => atIdle s

/-- The state with a table word's record at the head of the port. -/
def placeWord (nbits w : Nat) (s : State) : State :=
  { s with inq := tableRecordUsed nbits w ++ s.inq }

end Sys2Proof.Machine
end

