-- ==== Sys2Proof/Machine/Step.lean ====
section
/-!
DEFINITION. One step of the machine (spec/00_scope.md R10): it consumes the next event of the input port
and runs it to quiescence. An instance with an ill-formed constant table is refused (R80).
-/

namespace Sys2Proof.Machine

/-- R10: one step. -/
def step (s : State) : Host.Outcome State Fault Refusal :=
  if s.params.k.wf then
    match fetch s with
    | .error r => .refused (fetchRefusal r)
    | .ok (i, rest) => exec i (consumed rest s)
  else .refused .illFormedTable

/-- The state in which the very next step runs the instruction of a table word: its record stands at the
head of the port, and the control position enables it (log entry 4). -/
def State.withFetchWord (s : State) (nbits w : Nat) : State :=
  match decodeTableWord nbits w with
  | none => placeWord nbits w s
  | some i => placeWord nbits w (positionFor i s)

end Sys2Proof.Machine
end

