-- ==== Sys2Proof/Safety.lean ====
section
/-!
DEFINITION. What claims are stated in: a run of instructions, the control table of spec/10_state.md R30,
the invariants of R43, the page loop's and the session's invariants, the output streams of
spec/20_memory.md R62, and the states written out that the rules give for an issued command, a started
receive, and the end of an operation.
-/

namespace Sys2Proof.Machine

/-! ### Runs -/

/-- The instructions executed one after another, stopping at the first that has no next state. -/
def run : List Instr → State → Res
  | [], s => .next s
  | i :: is, s =>
    match exec i s with
    | .next t => run is t
    | .fault r => .fault r
    | .refused r => .refused r

/-- A caller operation (R180 to R182). -/
def isStart : Instr → Bool
  | .startFlash _ _ _ => true
  | .startSync _ _ => true
  | .startCommand _ => true
  | _ => false

/-- R123: an event of a transport that never delivers the marker: a TICK, or a CHUNK without `K.SOF`. -/
def isSilent (sof : Byte) : Instr → Bool
  | .tick => true
  | .chunk c => !c.contains sof
  | _ => false

/-- What a transport that answers reads with chunks offers: a TICK or a CHUNK (R122). -/
def isDelivery : Instr → Bool
  | .tick => true
  | .chunk _ => true
  | _ => false

/-- R62: the receive stream of some events, the bytes of their chunks in delivery order. -/
def receiveStream (es : List Instr) : Bytes :=
  es.flatMap fun e => match e with
    | .chunk c => c
    | _ => []

/-- An event with START_FLASH's debug option set to `d` (R180, R250). -/
def withDebug (d : Bool) : Instr → Instr
  | .startFlash img prof opts => .startFlash img prof { opts with debug := d }
  | i => i

/-- How many TICKs a script holds. -/
def tickCount (es : List Instr) : Nat := es.count .tick

/-! ### Output streams -/

/-- The frames written, in order. -/
def writes (outs : List Output) : List Bytes :=
  outs.filterMap fun o => match o with
    | .write f => some f
    | _ => none

/-- R62: the transmit stream of some outputs. -/
def transmitStream (outs : List Output) : Bytes := (writes outs).flatten

/-- The outputs without TRACE (R250). -/
def untraced (outs : List Output) : List Output :=
  outs.filter fun o => match o with
    | .trace _ => false
    | _ => true

/-- A WRITE or a READ_REQ: what the engine then waits on (R10). -/
def isRequest : Output → Bool
  | .write _ => true
  | .readReq => true
  | _ => false

/-- R250: the TRACE output of an event, present only under DEBUG. -/
def traceOf (debug : Bool) (ev : TraceEvent) : List Output := if debug then [.trace ev] else []

/-! ### States the rules give -/

/-- R140: `req` issued with frame `f`. -/
def issuedAs (req : Request) (f : Bytes) (s : State) : State :=
  { s with req := req, frame := f, tx := .writing, outs := s.outs ++ [.write f] }

/-- R160 to R166: a RAW request with no terminator that expects the bytes `e` exactly. -/
def exactRequest (op : Byte) (payload e : Bytes) (timeout : Nat) : Request :=
  { form := .raw, opcode := op, payload := payload, term := none, frameIn := [], expBytes := some e,
    expLen := none, timeout := timeout }

/-- R161, R167: a RAW request with no terminator that awaits `n` bytes. -/
def lengthOnlyRequest (op : Byte) (payload : Bytes) (n timeout : Nat) : Request :=
  { form := .raw, opcode := op, payload := payload, term := none, frameIn := [], expBytes := none,
    expLen := some n, timeout := timeout }

/-- R160 issued in state `s`. -/
def getSyncIssued (s : State) : State :=
  issuedAs (exactRequest s.params.k.getSync [] [s.params.k.ok0, s.params.k.ok1] s.timeout)
    [s.params.k.getSync, s.params.k.eop] s

/-- R165 issued in state `s` for word address `w`. -/
def loadAddressIssued (w : Nat) (s : State) : State :=
  issuedAs
    (exactRequest s.params.k.loadAddress [lo8 w, hi8 w] [s.params.k.ok0, s.params.k.ok1] s.timeout)
    [s.params.k.loadAddress, lo8 w, hi8 w, s.params.k.eop] s

/-- R166 issued in state `s` for page bytes `d`. -/
def progPageIssued (d : Bytes) (s : State) : State :=
  issuedAs
    (exactRequest s.params.k.progPage ([hi8 d.length, lo8 d.length, s.params.k.memtype] ++ d)
      [s.params.k.ok0, s.params.k.ok1] s.timeout)
    ([s.params.k.progPage, hi8 d.length, lo8 d.length, s.params.k.memtype] ++ d ++ [s.params.k.eop]) s

/-- R167 issued in state `s` for count `c`. -/
def readPageIssued (c : Nat) (s : State) : State :=
  issuedAs
    (lengthOnlyRequest s.params.k.readPage [hi8 c, lo8 c, s.params.k.memtype] (s.slice.length + 2)
      s.timeout)
    [s.params.k.readPage, hi8 c, lo8 c, s.params.k.memtype, s.params.k.eop] s

/-- R194: an operation ended with result `r`, its command over. -/
def endedWith (r : OpResult) (s : State) : State :=
  { s with
    tx := .idle, mode := .idle, pg := .none, result := some r, outs := s.outs ++ [.opDone r] }

/-- R112: the bytes of a chunk that are kept: all of it once synchronized, else those from the first
marker on. -/
def keptBytes (sof : Byte) (synced : Bool) (c : Bytes) : Bytes :=
  if synced then c else c.dropWhile fun b => b != sof

/-- R112, R113: the receiver with the kept bytes of chunk `c` appended, before the comparison. -/
def withChunk (c : Bytes) (s : State) : State :=
  { s with
    rxSynced := s.rxSynced || c.contains s.params.k.sof
    rxBuf := s.rxBuf ++ keptBytes s.params.k.sof s.rxSynced c }

/-- R145: what the command in flight makes of a received buffer. -/
def replyTo (s : State) (buf : Bytes) : Reply :=
  match s.req.expBytes with
  | none => .ok buf
  | some e => if buf = e then .ok buf else .err (.mismatch s.frame e buf)

/-- R116: the receive is over. -/
def receiveOver (s : State) : State := { s with rxActive := false, rxPend := false }

/-- R191: a flash aborted at the current step by error `e`. -/
def flashFailed (e : Err) (s : State) : State :=
  { s with
    tx := .idle, mode := .idle, pg := .none
    timeline := s.timeline ++ [(s.flashStep, .err e.kind)]
    result := some (.err (.stepFailure s.flashStep e))
    outs := s.outs ++ traceOf s.debug (.stepFailed s.flashStep e.kind) ++
      [.opDone (.err (.stepFailure s.flashStep e))] }

/-- R192, R185: the current step succeeded, its command over, and step `next` entered. -/
def stepPassed (next : FlashStep) (s : State) : State :=
  { s with
    tx := .idle, flashStep := next
    timeline := s.timeline ++ [(s.flashStep, .ok)]
    outs := s.outs ++ traceOf s.debug (.stepSucceeded s.flashStep) ++ traceOf s.debug (.stepStarted next) }

/-! ### Positions -/

/-- The steps of a flash that run Sync. -/
def FlashStep.isSync : FlashStep → Bool
  | .sync1 => true
  | .sync2 => true
  | .sync3 => true
  | _ => false

/-- The steps that run the page loop. -/
def FlashStep.isPaged : FlashStep → Bool
  | .upload => true
  | .verify => true
  | _ => false

/-- The steps before a step, in the order of R24. -/
def FlashStep.before : FlashStep → List FlashStep
  | .none => []
  | .sync1 => []
  | .sync2 => [.sync1]
  | .sync3 => [.sync1, .sync2]
  | .signature => [.sync1, .sync2, .sync3]
  | .setOptions => [.sync1, .sync2, .sync3, .signature]
  | .enterProgmode => [.sync1, .sync2, .sync3, .signature, .setOptions]
  | .upload => [.sync1, .sync2, .sync3, .signature, .setOptions, .enterProgmode]
  | .verify => [.sync1, .sync2, .sync3, .signature, .setOptions, .enterProgmode, .upload]
  | .exitProgmode => [.sync1, .sync2, .sync3, .signature, .setOptions, .enterProgmode, .upload, .verify]

/-- The engine waits for the response to a command it has written, and nothing of it has come yet. -/
def awaitsFresh (s : State) : Prop :=
  s.tx = .receiving ∧ s.rxActive = true ∧ s.rxPend = true ∧ s.rxSynced = false ∧ s.rxBuf = []

/-- The engine waits for the OK acknowledgment of R84, and nothing of it has come yet. -/
def awaitsOk (s : State) : Prop :=
  awaitsFresh s ∧ s.rxExp = 2 ∧ s.req.expBytes = some [s.params.k.ok0, s.params.k.ok1]

/-! ### Invariants -/

/-- R30: the reachable combinations of the control state at quiescence. -/
def controlListed (m : Mode) (st : FlashStep) (pg : Pg) (tx : Tx) : Bool :=
  match m with
  | .idle => decide (pg = .none) && decide (tx = .idle)
  | .cmdOp => decide (st = .none) && decide (pg = .none) && decide (tx ≠ .idle)
  | .syncOp => decide (st = .none) && decide (pg = .none) && decide (tx ≠ .idle)
  | .flash =>
    match pg with
    | .none => decide (st ≠ .none) && !st.isPaged && decide (tx ≠ .idle)
    | .loadAddr => st.isPaged && decide (tx ≠ .idle)
    | .pageCmd => st.isPaged && decide (tx ≠ .idle)
    | .settle => st.isPaged && decide (tx = .idle)

/-- R30 for a state. -/
def ControlOk (s : State) : Prop := controlListed s.mode s.flashStep s.pg s.tx = true

/-- R43, one field for each line of the rule, in its order. -/
structure RxInvariant (s : State) : Prop where
  active_iff : s.rxActive = true ↔ s.tx = .receiving
  active_pend : s.rxActive = true → s.rxPend = true
  active_short : s.rxActive = true →
    s.rxBuf.length < s.rxExp ∨ (s.rxExp = 0 ∧ s.rxBuf = [])
  buf_marker : s.rxBuf ≠ [] → s.rxSynced = true ∧ s.rxBuf.head? = some s.params.k.sof
  idle_quiet : s.mode = .idle → s.tx = .idle ∧ s.pg = .none ∧ s.rxPend = false
  settle_quiet : s.pg = .settle → s.tx = .idle
  elapsed_le : 0 < s.rxTo → s.rxActive = true → s.rxEl ≤ s.rxTo

/-- The quiescent states: R30 and R43; a read is outstanding only while a receive runs (R34, R35); and a
running receive is synchronized only once it holds the marker (R112, R113). -/
structure Quiescent (s : State) : Prop where
  control : ControlOk s
  rx : RxInvariant s
  pend_active : s.rxPend = true → s.rxActive = true
  synced_buf : s.rxActive = true → s.rxSynced = true → s.rxBuf ≠ []

/-- R60, R203, R208: inside the page loop the cursor stays in the image, and the slice is the one the
cursor names. -/
structure PageInvariant (s : State) : Prop where
  load_inside : s.pg = .loadAddr → s.pageAddr < s.image.length
  page_inside : s.pg = .pageCmd → s.pageAddr < s.image.length ∧ s.slice = currentSlice s ∧
    s.pageAddr + s.slice.length ≤ s.image.length ∧ s.slice.length ≤ s.profile.p
  settle_inside : s.pg = .settle → s.pageAddr ≤ s.image.length ∧ s.settle < Config.settleTicks
  word : s.pg = .loadAddr ∨ s.pg = .pageCmd → s.wordAddr = s.pageAddr >>> 1

/-- R140, R110: while a command is in flight, FRAME is its frame, and while it is received, the receiver
works with its length and timeout. -/
structure CommandInvariant (s : State) : Prop where
  frame_of : s.tx ≠ .idle → s.frame = buildFrame s.params.k s.req
  exp_of : s.tx = .receiving → s.rxExp = respLen s.req
  to_of : s.tx = .receiving → s.rxTo = s.req.timeout

/-- R26, R40, R42, R184: while a session runs, TIMELINE names the steps that passed; while any operation
runs there is no result; and the Sync attempt stays in its budget. -/
structure SessionInvariant (s : State) : Prop where
  passed : s.mode = .flash → s.timeline = s.flashStep.before.map fun st => (st, StepOutcome.ok)
  no_result : s.mode ≠ .idle → s.result = none
  tries : s.mode = .syncOp ∨ (s.mode = .flash ∧ s.flashStep.isSync = true) →
    1 ≤ s.syncTry ∧ s.syncTry ≤ max s.attempts 1

/-- R160 to R167, R185, R202, R205, R206: the request that belongs to each position of a flash or a
Sync. A CMD_OP's request is the caller's. -/
def positionRequest (s : State) : Option Request :=
  match s.mode with
  | .idle => none
  | .cmdOp => none
  | .syncOp => some (getSyncRequest s)
  | .flash =>
    match s.flashStep with
    | .none => none
    | .sync1 => some (getSyncRequest s)
    | .sync2 => some (getSyncRequest s)
    | .sync3 => some (getSyncRequest s)
    | .signature => some (readSignRequest s)
    | .setOptions => some (setDeviceRequest s.profile.devparams s)
    | .enterProgmode => some (enterProgmodeRequest s)
    | .upload =>
      match s.pg with
      | .loadAddr => some (loadAddressRequest s.wordAddr s)
      | .pageCmd => some (progPageRequest s.slice s)
      | .none => none
      | .settle => none
    | .verify =>
      match s.pg with
      | .loadAddr => some (loadAddressRequest s.wordAddr s)
      | .pageCmd => some (readPageRequest (readCount s) s)
      | .none => none
      | .settle => none
    | .exitProgmode => some (leaveProgmodeRequest s)

/-- The command in flight is the one its position issues. -/
def InFlightOk (s : State) : Prop :=
  s.tx ≠ .idle → ∀ q, positionRequest s = some q → s.req = q

/-! ### The page loop as cursors -/

/-- R201, R204, R208: `as` are the cursors of a loop that starts at `a` and ends. -/
def IsPageRun (rule : ClipRule) (l p : Nat) : Nat → List Nat → Prop
  | a, [] => l ≤ a
  | a, b :: r => b = a ∧ a < l ∧ IsPageRun rule l p (clipEnd rule l p a) r

/-- R213: under `literal` with `L mod P ≠ 0`, the cursor of iteration `i`: multiples of the page size up to
the last full page's end, then the last byte's address for ever. -/
def literalCursor (l p i : Nat) : Nat := if i ≤ l / p then i * p else l - 1

/-- The slice at cursor `a`. -/
def sliceAt (rule : ClipRule) (img : Bytes) (p a : Nat) : Bytes :=
  memRead img a (clipEnd rule img.length p a - a)

/-- R202: the LOAD_ADDRESS frame at cursor `a`. -/
def loadFrameAt (k : KTable) (a : Nat) : Bytes := [k.loadAddress, lo8 (a / 2), hi8 (a / 2), k.eop]

/-- R205: the PROG_PAGE frame of slice `d`. -/
def progFrame (k : KTable) (d : Bytes) : Bytes :=
  [k.progPage, hi8 d.length, lo8 d.length, k.memtype] ++ d ++ [k.eop]

/-- R206: the READ_PAGE frame of count `c`. -/
def readFrame (k : KTable) (c : Nat) : Bytes := [k.readPage, hi8 c, lo8 c, k.memtype, k.eop]

/-- R206: the count READ_PAGE sends for a slice of `n` bytes. -/
def countFor (p : Params) (pageSize n : Nat) : Nat :=
  match p.readPageCount with
  | .pageSize => pageSize
  | .sliceLength => n

/-- One undisturbed iteration of the Upload loop: both commands acknowledged, then the settle delay. -/
def ackIteration (k : KTable) : List Instr :=
  [.wackOk, .chunk k.okBytes, .wackOk, .chunk k.okBytes, .tick, .tick, .tick, .tick]

/-- `n` undisturbed iterations of the Upload loop. -/
def ackIterations (k : KTable) : Nat → List Instr
  | 0 => []
  | n + 1 => ackIteration k ++ ackIterations k n

end Sys2Proof.Machine
end

