-- ==== Sys2Proof/Certificates/Slice0/Obligations.lean ====
section
/-!
DEFINITION. The statements for the provers, in the order of OBLIGATIONS.json. Each docstring names the
rule of spec/ it formalises, or the model's own choice it rests on.
-/

open Sys2Proof Sys2Proof.Machine

/-! ### Reset and the step -/

/-- R48: the reset value of every register. -/
def Obligations.ResetRegisterValues : Prop :=
  State.reset.mode = .idle ∧ State.reset.flashStep = .none ∧ State.reset.pg = .none ∧
  State.reset.syncTry = 0 ∧ State.reset.syncLast = none ∧
  State.reset.pageAddr = 0 ∧ State.reset.wordAddr = 0 ∧ State.reset.slice = [] ∧
  State.reset.settle = 0 ∧ State.reset.image = [] ∧
  State.reset.profile.sig = [] ∧ State.reset.profile.p = 0 ∧
  State.reset.profile.devparams = List.replicate 20 0 ∧
  State.reset.attempts = 0 ∧ State.reset.timeout = 0 ∧ State.reset.debug = false ∧
  State.reset.tx = .idle ∧
  State.reset.req.form = .raw ∧ State.reset.req.opcode = 0 ∧ State.reset.req.payload = [] ∧
  State.reset.req.term = none ∧ State.reset.req.frameIn = [] ∧ State.reset.req.expBytes = none ∧
  State.reset.req.expLen = none ∧ State.reset.req.timeout = 0 ∧
  State.reset.frame = [] ∧ State.reset.rxActive = false ∧ State.reset.rxPend = false ∧
  State.reset.rxSynced = false ∧ State.reset.rxBuf = [] ∧ State.reset.rxExp = 0 ∧
  State.reset.rxTo = 0 ∧ State.reset.rxEl = 0 ∧ State.reset.result = none ∧
  State.reset.sigResp = [] ∧ State.reset.timeline = []

/-- R260: after reset nothing has been emitted, TICK has no effect, the START events run, and no other
instruction has a step. -/
def Obligations.ResetEnablesTickAndStartOnly : Prop :=
  State.reset.outs = [] ∧ exec .tick State.reset = .next State.reset ∧
  ∀ i : Instr, i.wf = true →
    ((i = .tick ∨ isStart i = true) → ∃ t, exec i State.reset = .next t) ∧
    (i ≠ .tick → isStart i = false → exec i State.reset = .refused .notEnabled)

/-- The invariants stated below hold at reset. -/
def Obligations.ResetMeetsInvariants : Prop :=
  Quiescent State.reset ∧ PageInvariant State.reset ∧ CommandInvariant State.reset ∧
  SessionInvariant State.reset ∧ InFlightOk State.reset

/-- R10: with a well-formed constant table, a step takes the first record off the port and runs the
instruction it decodes to; where nothing decodes there is no step. The port as a byte queue in the state
is the model's choice (log entries 1 and 2). -/
def Obligations.StepRunsDecodedInstruction : Prop :=
  ∀ s : State, s.params.k.wf = true →
    (∀ i rest, decode s.inq = .ok (i, rest) → step s = exec i { s with inq := rest }) ∧
    (∀ r, decode s.inq = .error r → r ≠ .noBytes → step s = .refused (.undecodable r)) ∧
    (s.inq = [] → step s = .refused .noInput)

/-- R80: a constant table whose OK sequence does not begin with the marker, or with two equal opcodes, is
refused: no step exists. -/
def Obligations.IllFormedTableHasNoStep : Prop :=
  ∀ s : State,
    (s.params.k.ok0 ≠ s.params.k.sof ∨
      ∃ a b, a < b ∧ b < 8 ∧ s.params.k.opcodes[a]? = s.params.k.opcodes[b]?) →
    step s = .refused .illFormedTable

/-- R96: a record whose tag is 0x6, 0x7 or 0xB to 0xF is refused by the decoder of input records, whatever
follows the tag. That the tag fills a whole byte of the port is the model's choice (log entry 2). -/
def Obligations.ReservedTagsRefused : Prop :=
  ∀ (s : State) (tag : Nat) (rest : Bytes), s.params.k.wf = true →
    (tag = 6 ∨ tag = 7 ∨ (11 ≤ tag ∧ tag ≤ 15)) → s.inq = BitVec.ofNat 8 tag :: rest →
    step s = .refused (.undecodable (.reservedTag tag))

/-! ### Encodings -/

/-- Words written out from the spec decode to their instructions: the frames of 95_test_vectors CM-1 to
CM-5, CM-8, CM-9, CM-11 and the third of CM-6, and the tags of the events of R96 that have no operands. The
opcode, terminator and sub-command values are `K_REF`, log entry 6. That a tag fills a byte of the port is
the model's choice, log entry 2. -/
def Obligations.SpecWordsDecode : Prop :=
  decodeFrame Config.kRef [0x30, 0x20] = .ok (.getSync, []) ∧
  decodeFrame Config.kRef [0x75, 0x20] = .ok (.readSign, []) ∧
  decodeFrame Config.kRef
    [0x42, 0x86, 0x00, 0x00, 0x01, 0x01, 0x01, 0x01, 0x03, 0xFF, 0xFF, 0xFF, 0xFF, 0x00, 0x80, 0x04,
      0x00, 0x00, 0x00, 0x80, 0x00, 0x20] =
    .ok (.setDevice [0x86, 0x00, 0x00, 0x01, 0x01, 0x01, 0x01, 0x03, 0xFF, 0xFF, 0xFF, 0xFF, 0x00, 0x80,
      0x04, 0x00, 0x00, 0x00, 0x80, 0x00], []) ∧
  decodeFrame Config.kRef [0x50, 0x20] = .ok (.enterProgmode, []) ∧
  decodeFrame Config.kRef [0x51, 0x20] = .ok (.leaveProgmode, []) ∧
  decodeFrame Config.kRef [0x55, 0x34, 0x12, 0x20] = .ok (.loadAddress 0x1234, []) ∧
  decodeFrame Config.kRef [0x64, 0x00, 0x04, 0x46, 0x0C, 0x94, 0x34, 0x00, 0x20] =
    .ok (.progPage [0x0C, 0x94, 0x34, 0x00], []) ∧
  decodeFrame Config.kRef [0x64, 0x00, 0x00, 0x46, 0x20] = .ok (.progPage [], []) ∧
  decodeFrame Config.kRef [0x74, 0x00, 0x80, 0x46, 0x20] = .ok (.readPage 128, []) ∧
  decodeTableWord 8 0x00 = some .tick ∧ decodeTableWord 8 0x02 = some .eos ∧
  decodeTableWord 8 0x04 = some .wackOk

/-- Every well-formed instruction is read back from its port record, whatever follows it. The record's
operand layout is the model's choice (log entry 2). -/
def Obligations.PortRecordRoundTrip : Prop :=
  ∀ (i : Instr) (rest : Bytes), i.wf = true → decode (encode i ++ rest) = .ok (i, rest)

/-- R86: the frame lengths, and a decoder that knows a well-formed `K` splits any transmit stream of
frames of well-formed commands back into these commands. -/
def Obligations.TransmitStreamSplits : Prop :=
  ∀ k : KTable, k.wf = true →
    (∀ (i : Instr) (f : Bytes), i.wf = true → encodeFrame k i = some f →
      f.length = match i with
        | .setDevice _ => 22
        | .loadAddress _ => 4
        | .readPage _ => 5
        | .progPage d => 5 + d.length
        | _ => 2) ∧
    ∀ (is : List Instr) (fs : List Bytes), (∀ i ∈ is, i.wf = true) →
      is.map (encodeFrame k) = fs.map some → splitFrames k fs.flatten = some is

/-! ### The wire commands -/

/-- R160, R161, R163, R164: GET_SYNC, READ_SIGN, ENTER_PROGMODE and LEAVE_PROGMODE are issued: the request
is latched, the two-byte frame written, and the transceiver waits for the acknowledgment. READ_SIGN awaits
`1 + |SIG| + 1` bytes and compares no content; the others await the OK acknowledgment exactly. Nothing
else changes. The condition `canIssue` beyond R140's `TX = TX_IDLE` is log entry 3. -/
def Obligations.PlainCommandsIssued : Prop :=
  ∀ s : State, canIssue s = true →
    exec .getSync s = .next (issuedAs
      (exactRequest s.params.k.getSync [] [s.params.k.ok0, s.params.k.ok1] s.timeout)
      [s.params.k.getSync, s.params.k.eop] s) ∧
    exec .readSign s = .next (issuedAs
      (lengthOnlyRequest s.params.k.readSign [] (1 + s.profile.sig.length + 1) s.timeout)
      [s.params.k.readSign, s.params.k.eop] s) ∧
    exec .enterProgmode s = .next (issuedAs
      (exactRequest s.params.k.enterProgmode [] [s.params.k.ok0, s.params.k.ok1] s.timeout)
      [s.params.k.enterProgmode, s.params.k.eop] s) ∧
    exec .leaveProgmode s = .next (issuedAs
      (exactRequest s.params.k.leaveProgmode [] [s.params.k.ok0, s.params.k.ok1] s.timeout)
      [s.params.k.leaveProgmode, s.params.k.eop] s)

/-- R162: SET_DEVICE sends its 20 bytes in order; with another number of bytes it is refused.
The condition `canIssue` is log entry 3. -/
def Obligations.SetDeviceIssued : Prop :=
  ∀ (s : State) (d : Bytes), canIssue s = true →
    (d.length = 20 → exec (.setDevice d) s = .next (issuedAs
      (exactRequest s.params.k.setDevice d [s.params.k.ok0, s.params.k.ok1] s.timeout)
      ([s.params.k.setDevice] ++ d ++ [s.params.k.eop]) s)) ∧
    (d.length ≠ 20 → exec (.setDevice d) s = .refused .illFormedInput)

/-- R165, R88: LOAD_ADDRESS sends bits 7:0 and then bits 15:8 of the word address, so an address of
`2^16` or more is sent modulo `2^16`. The condition `canIssue` is log entry 3. -/
def Obligations.LoadAddressIssued : Prop :=
  ∀ (s : State) (w : Nat), canIssue s = true →
    (∃ lo hi : Byte, lo.toNat = w % 256 ∧ hi.toNat = w / 256 % 256 ∧
      lo.toNat + 256 * hi.toNat = w % 2 ^ 16 ∧
      exec (.loadAddress w) s = .next (issuedAs
        (exactRequest s.params.k.loadAddress [lo, hi] [s.params.k.ok0, s.params.k.ok1] s.timeout)
        [s.params.k.loadAddress, lo, hi, s.params.k.eop] s))

/-- R166, R88: PROG_PAGE sends the slice length, high byte first and modulo `2^16`, the sub-command byte,
the slice and the terminator. The condition `canIssue` is log entry 3. -/
def Obligations.ProgPageIssued : Prop :=
  ∀ (s : State) (d : Bytes), canIssue s = true →
    (∃ lo hi : Byte, lo.toNat = d.length % 256 ∧ hi.toNat = d.length / 256 % 256 ∧
      exec (.progPage d) s = .next (issuedAs
        (exactRequest s.params.k.progPage ([hi, lo, s.params.k.memtype] ++ d)
          [s.params.k.ok0, s.params.k.ok1] s.timeout)
        ([s.params.k.progPage, hi, lo, s.params.k.memtype] ++ d ++ [s.params.k.eop]) s))

/-- R167, R88: READ_PAGE sends the count, high byte first, and awaits `|SLICE| + 2` bytes whatever the
count is. The condition `canIssue` is log entry 3. -/
def Obligations.ReadPageIssued : Prop :=
  ∀ (s : State) (c : Nat), canIssue s = true →
    (∃ lo hi : Byte, lo.toNat = c % 256 ∧ hi.toNat = c / 256 % 256 ∧
      exec (.readPage c) s = .next (issuedAs
        (lengthOnlyRequest s.params.k.readPage [hi, lo, s.params.k.memtype] (s.slice.length + 2)
          s.timeout)
        [s.params.k.readPage, hi, lo, s.params.k.memtype, s.params.k.eop] s))

/-- R85, R142: the frame a wire command writes is its wire encoding under the instance's `K`. -/
def Obligations.CommandsWriteTheirEncoding : Prop :=
  ∀ (s t : State) (i : Instr) (f : Bytes), encodeFrame s.params.k i = some f → exec i s = .next t →
    t.frame = f ∧ t.outs = s.outs ++ [.write f]

/-! ### The frame receiver -/

/-- R112: the marker scan of the model, and the bytes it keeps. -/
def Obligations.MarkerScan : Prop :=
  (∀ (sof : Byte) (synced : Bool) (c : Bytes), scan sof synced c =
    (synced || c.contains sof, keptBytes sof synced c)) ∧
  (∀ (sof : Byte) (c : Bytes), scan sof true c = (true, c)) ∧
  (∀ (sof : Byte) (c : Bytes), sof ∉ c → scan sof false c = (false, [])) ∧
  (∀ (sof : Byte) (pre rest : Bytes), sof ∉ pre →
    scan sof false (pre ++ sof :: rest) = (true, sof :: rest))

/-- R111 to R115: a CHUNK that leaves the buffer short: the bytes kept are appended, the next chunk is
requested, and nothing else changes. Holds in every mode. -/
def Obligations.ChunkLeavesReceiveRunning : Prop :=
  ∀ (s : State) (c : Bytes), s.rxPend = true →
    s.rxBuf.length + (keptBytes s.params.k.sof s.rxSynced c).length < s.rxExp →
    exec (.chunk c) s = .next { withChunk c s with outs := s.outs ++ [.readReq] }

/-- R114, R117, R145, R147: in every mode, a receive that ends with a buffer (a CHUNK that completes it,
or EOS under `short_buffer`) hands the sequencer the buffer, or a mismatch where the request has other
expected bytes, with the transceiver idle again. -/
def Obligations.ResponsesReachSequencer : Prop :=
  ∀ (s : State) (c buf : Bytes), s.rxPend = true →
    (buf = s.rxBuf ++ keptBytes s.params.k.sof s.rxSynced c → buf.length = s.rxExp →
      exec (.chunk c) s = seqOnCmd (replyTo s buf) { receiveOver (withChunk c s) with tx := .idle }) ∧
    (s.params.eosMode = .shortBuffer →
      exec .eos s = seqOnCmd (replyTo s s.rxBuf) { receiveOver s with tx := .idle })

/-- R117, R118, R144, R146, R147: the events that end a single command (CMD_OP) without completing its
buffer. EOS: under `short_buffer` the partial buffer is the receive's result, compared where the request
has expected bytes; under `error` it is IncompleteResponse. READ_FAIL and WACK_FAIL: TransportError with
the frame bytes and the cause, and after WACK_FAIL no receive. Nothing else changes. -/
def Obligations.TransportEventsEndSingleCommand : Prop :=
  ∀ (s : State) (x : Cause), s.mode = .cmdOp →
    (s.rxPend = true → s.params.eosMode = .error →
      exec .eos s = .next (endedWith (.err (.incomplete (some s.frame) s.rxBuf.length s.rxExp))
        (receiveOver s))) ∧
    (s.rxPend = true → s.params.eosMode = .shortBuffer →
      ((s.req.expBytes = none ∨ s.req.expBytes = some s.rxBuf) →
        exec .eos s = .next (endedWith (.ok (.bytes s.rxBuf)) (receiveOver s))) ∧
      (∀ e, s.req.expBytes = some e → s.rxBuf ≠ e →
        exec .eos s = .next (endedWith (.err (.mismatch s.frame e s.rxBuf)) (receiveOver s)))) ∧
    (s.rxPend = true → exec (.readFail x) s =
      .next (endedWith (.err (.transport .read (some s.frame) x)) (receiveOver s))) ∧
    (s.tx = .writing → exec (.wackFail x) s =
      .next (endedWith (.err (.transport .write (some s.frame) x)) s))

/-- R119, R120: TICK outside the settle delay: without a receive, or with timeout 0, it has no effect;
before the timeout it only counts. -/
def Obligations.TickCountsOnlyRunningTimer : Prop :=
  ∀ s : State, s.pg ≠ .settle →
    (s.rxActive = false → exec .tick s = .next s) ∧
    (s.rxActive = true → s.rxTo = 0 → exec .tick s = .next s) ∧
    (s.rxActive = true → s.rxEl + 1 < s.rxTo → exec .tick s = .next { s with rxEl := s.rxEl + 1 })

/-- R121: in every mode, a buffer that a receive hands over as OK has exactly the expected length where a
CHUNK ends the receive, is shorter (or empty) where EOS does, and begins with the marker if it is not empty;
a longer buffer is BufferOverflow. Where the operation is a command or a Sync of the lower-level surface,
the same holds of its result. -/
def Obligations.ReceivedBytesAreFramed : Prop :=
  ∀ s : State, Quiescent s → s.rxPend = true →
    (∀ c buf, buf = s.rxBuf ++ keptBytes s.params.k.sof s.rxSynced c →
      (buf.length = s.rxExp →
        exec (.chunk c) s =
          seqOnCmd (replyTo s buf) { receiveOver (withChunk c s) with tx := .idle } ∧
        (buf ≠ [] → buf.head? = some s.params.k.sof)) ∧
      (s.rxExp < buf.length → ∃ b n, exec (.chunk c) s =
        seqOnCmd (.err (.overflow (some s.frame) buf.length s.rxExp))
          { receiveOver (withChunk c s) with tx := .idle, rxBuf := b, freeCtr := n })) ∧
    (s.params.eosMode = .shortBuffer →
      exec .eos s = seqOnCmd (replyTo s s.rxBuf) { receiveOver s with tx := .idle } ∧
      (s.rxBuf.length < s.rxExp ∨ s.rxBuf = []) ∧
      (s.rxBuf ≠ [] → s.rxBuf.head? = some s.params.k.sof)) ∧
    (∀ t b, s.mode = .cmdOp ∨ s.mode = .syncOp → t.result = some (.ok (.bytes b)) → t.mode = .idle →
      (∀ c, exec (.chunk c) s = .next t →
        b.length = s.rxExp ∧ (b ≠ [] → b.head? = some s.params.k.sof)) ∧
      (exec .eos s = .next t →
        (b.length < s.rxExp ∨ b = []) ∧ (b ≠ [] → b.head? = some s.params.k.sof)))

/-- R122: in every mode, every split of `pre ++ f` into chunks, with TICKs anywhere between them that do not
reach RX_TO, hands the sequencer the same buffer `f`, with one READ_REQ for each chunk but the last. -/
def Obligations.ChunkSplitInvariance : Prop :=
  ∀ (s : State) (pre f last : Bytes) (es : List Instr), awaitsFresh s → s.pg ≠ .settle →
    s.rxExp = f.length → s.params.k.sof ∉ pre → f.head? = some s.params.k.sof →
    (∀ e ∈ es, isDelivery e = true) → last ≠ [] → receiveStream es ++ last = pre ++ f →
    (s.rxTo = 0 ∨ s.rxEl + tickCount es < s.rxTo) →
    run (es ++ [.chunk last]) s = seqOnCmd (replyTo s f)
      { receiveOver s with
        tx := .idle, rxSynced := true, rxBuf := f
        rxEl := if s.rxTo = 0 then s.rxEl else s.rxEl + tickCount es
        outs := s.outs ++ List.replicate (es.length - tickCount es) .readReq }

/-- R123: in every mode, a receive whose chunks never hold the marker runs for `RX_TO - 1` ticks, and its
`RX_TO`-th tick withdraws the read and hands the sequencer Timeout. The expected length is at least 1: with
0 the first chunk ends the receive (R114, D12, log entry 15). -/
def Obligations.SilentReceiveTimesOut : Prop :=
  ∀ (s : State) (es : List Instr), awaitsFresh s → s.pg ≠ .settle →
    0 < s.rxTo → s.rxEl = 0 → 0 < s.rxExp → (∀ e ∈ es, isSilent s.params.k.sof e = true) →
    tickCount es + 1 = s.rxTo →
    run es s = .next { s with
      rxEl := tickCount es
      outs := s.outs ++ List.replicate (es.length - tickCount es) .readReq } ∧
    run (es ++ [.tick]) s = seqOnCmd (.err (.timeout (some s.frame) s.rxTo))
      { receiveOver s with
        tx := .idle, rxEl := s.rxTo
        outs := s.outs ++ List.replicate (es.length - tickCount es) .readReq ++ [.readCancel] }

/-! ### The command transceiver -/

/-- R143, R110, R141: WACK_OK starts the receive: an empty, unsynchronized buffer, the timer at 0, the
request's timeout, and the length its fields give, an explicit length first. Holds in every mode. -/
def Obligations.WackOkStartsReceive : Prop :=
  ∀ s : State, s.tx = .writing →
    exec .wackOk s = .next { s with
      tx := .receiving, rxActive := true, rxPend := true, rxSynced := false, rxBuf := []
      rxExp := (match s.req.expLen, s.req.expBytes with
        | some n, _ => n
        | none, some b => b.length
        | none, none => 0)
      rxTo := s.req.timeout, rxEl := 0, outs := s.outs ++ [.readReq] }

/-- R147, R146, R240: in every mode, a failure of the command in flight reaches the sequencer as the
command's result, with the command's frame in the record and the transceiver idle again. -/
def Obligations.FailuresReachSequencer : Prop :=
  ∀ s : State,
    (∀ x, s.tx = .writing → exec (.wackFail x) s =
      seqOnCmd (.err (.transport .write (some s.frame) x)) { s with tx := .idle }) ∧
    (∀ x, s.rxPend = true → exec (.readFail x) s =
      seqOnCmd (.err (.transport .read (some s.frame) x)) { receiveOver s with tx := .idle }) ∧
    (s.rxPend = true → s.params.eosMode = .error → exec .eos s =
      seqOnCmd (.err (.incomplete (some s.frame) s.rxBuf.length s.rxExp))
        { receiveOver s with tx := .idle }) ∧
    (∀ c m, s.rxPend = true → m = s.rxBuf.length + (keptBytes s.params.k.sof s.rxSynced c).length →
      s.rxExp < m → ∃ b n, exec (.chunk c) s = seqOnCmd (.err (.overflow (some s.frame) m s.rxExp))
        { receiveOver (withChunk c s) with tx := .idle, rxBuf := b, freeCtr := n }) ∧
    (s.pg ≠ .settle → s.rxActive = true → 0 < s.rxTo → s.rxTo ≤ s.rxEl + 1 → exec .tick s =
      seqOnCmd (.err (.timeout (some s.frame) (s.rxEl + 1)))
        { receiveOver s with
          tx := .idle, rxEl := s.rxEl + 1, outs := s.outs ++ [.readCancel] })

/-- R148, R236: a request with expected bytes and no explicit length, from START_COMMAND to its result:
a response of that length succeeds iff it is identical, else the mismatch names the command and both
byte sequences. -/
def Obligations.ExactResponseMatch : Prop :=
  ∀ (s : State) (q : Request) (e buf : Bytes), s.mode = .idle → q.expBytes = some e →
    q.expLen = none → buf.head? = some s.params.k.sof → buf.length = e.length →
    ∃ t, run [.startCommand q, .wackOk, .chunk buf] s = .next t ∧ t.mode = .idle ∧
      (buf = e → t.result = some (.ok (.bytes buf))) ∧
      (buf ≠ e → t.result = some (.err (.mismatch (buildFrame s.params.k q) e buf))) ∧
      t.outs = s.outs ++ [.write (buildFrame s.params.k q), .readReq] ++
        (t.result.map Output.opDone).toList

/-- R142: the frame of a request. -/
def Obligations.RequestFrames : Prop :=
  ∀ (k : KTable) (q : Request),
    (q.form = .raw → q.term = none → buildFrame k q = [q.opcode] ++ q.payload ++ [k.eop]) ∧
    (∀ b, q.form = .raw → q.term = some b → buildFrame k q = [q.opcode] ++ q.payload ++ [b]) ∧
    (q.form = .prebuilt → buildFrame k q = q.frameIn)

/-! ### The caller's operations -/

/-- R180, R185, R184: in IDLE, START_FLASH with 20 device parameters opens the session, whatever the image
and the page size are, enters SYNC1 and writes the first GET_SYNC; with another number of device parameters
it is refused; outside IDLE it has no step. -/
def Obligations.StartFlashOpensSession : Prop :=
  ∀ (s : State) (img : Bytes) (prof : Profile) (opts : Options),
    (s.mode = .idle → prof.devparams.length = 20 →
      exec (.startFlash img prof opts) s = .next (getSyncIssued { s with
        image := img, profile := prof
        attempts := opts.attempts, timeout := opts.timeout, debug := opts.debug
        mode := .flash, flashStep := .sync1, pg := .none
        result := none, timeline := [], sigResp := []
        pageAddr := 0, wordAddr := 0, slice := [], settle := 0
        syncTry := 1, syncLast := none
        outs := s.outs ++ traceOf opts.debug (.stepStarted .sync1) })) ∧
    (prof.devparams.length ≠ 20 → exec (.startFlash img prof opts) s = .refused .illFormedInput) ∧
    (s.mode ≠ .idle → prof.devparams.length = 20 →
      exec (.startFlash img prof opts) s = .refused .notEnabled)

/-- R181, R182, R184, R89: START_SYNC writes its options and the first GET_SYNC; START_COMMAND issues the
caller's request unchecked. The session's other registers keep their values. -/
def Obligations.LowerLevelOperationsStart : Prop :=
  ∀ s : State, s.mode = .idle →
    (∀ a t, exec (.startSync a t) s = .next (getSyncIssued { s with
      attempts := a, timeout := t, debug := false
      mode := .syncOp, flashStep := .none, result := none
      syncTry := 1, syncLast := none })) ∧
    (∀ q, exec (.startCommand q) s = .next (issuedAs q (buildFrame s.params.k q)
      { s with debug := false, mode := .cmdOp, flashStep := .none, result := none }))

/-- R183, R193, R194: the result of a single command is the operation's result, unchanged; so is a
successful Sync of the lower-level surface. -/
def Obligations.LowerLevelResultsAreDone : Prop :=
  ∀ s : State, s.tx = .idle →
    (s.mode = .cmdOp → (∀ buf, seqOnCmd (.ok buf) s = .next (endedWith (.ok (.bytes buf)) s)) ∧
      ∀ e, seqOnCmd (.err e) s = .next (endedWith (.err e) s)) ∧
    (s.mode = .syncOp → ∀ buf, seqOnCmd (.ok buf) s = .next (endedWith (.ok (.bytes buf)) s))

/-- R98, R140: an input event that is not enabled has no step, and no command is issued while one is in
flight. -/
def Obligations.InputsNotEnabledHaveNoStep : Prop :=
  ∀ s : State,
    (s.rxPend = false → (∀ c, exec (.chunk c) s = .refused .notEnabled) ∧
      exec .eos s = .refused .notEnabled ∧ ∀ x, exec (.readFail x) s = .refused .notEnabled) ∧
    (s.tx ≠ .writing → exec .wackOk s = .refused .notEnabled ∧
      ∀ x, exec (.wackFail x) s = .refused .notEnabled) ∧
    (s.mode ≠ .idle →
      (∀ img prof opts, prof.wf = true → exec (.startFlash img prof opts) s = .refused .notEnabled) ∧
      (∀ a t, exec (.startSync a t) s = .refused .notEnabled) ∧
      ∀ q, exec (.startCommand q) s = .refused .notEnabled) ∧
    (s.tx ≠ .idle → ∀ (i : Instr) (k : KTable), i.wf = true → (encodeFrame k i).isSome →
      exec i s = .refused .notEnabled)

/-- R98, R30: in every quiescent state, every enabled well-formed input event has a step: no control
state without a rule is ever met. -/
def Obligations.EnabledInputsHaveAStep : Prop :=
  ∀ (s : State) (i : Instr), Quiescent s → i.wf = true → enabled i s = true →
    ∃ t, exec i s = .next t

/-! ### The programming state machine -/

/-- R184, R193: a failed attempt of Sync is retried at once while the budget `max(ATTEMPTS, 1)` allows;
else the invocation ends with SyncExhausted, unwrapped in SYNC_OP and inside StepFailure in FLASH. -/
def Obligations.SyncRetriesThenExhausts : Prop :=
  ∀ (s : State) (e : Err), s.tx = .idle →
    (s.mode = .syncOp ∨ (s.mode = .flash ∧ s.flashStep.isSync = true)) →
    (s.syncTry < max s.attempts 1 → seqOnCmd (.err e) s =
      .next (getSyncIssued { s with syncLast := some e, syncTry := s.syncTry + 1 })) ∧
    (max s.attempts 1 ≤ s.syncTry →
      (s.mode = .syncOp → seqOnCmd (.err e) s =
        .next (endedWith (.err (.syncExhausted (max s.attempts 1) e)) { s with syncLast := some e })) ∧
      (s.mode = .flash → seqOnCmd (.err e) s =
        .next (flashFailed (.syncExhausted (max s.attempts 1) e) { s with syncLast := some e })))

/-- R230, R231: the kind of each error record, and the code of each kind; the codes are decision D23 of the
spec. -/
def Obligations.ErrorKindsAndCodes : Prop :=
  (∀ d c x, (Err.transport d c x).kind = .transportError) ∧
  (∀ c n, (Err.timeout c n).kind = .timeout) ∧
  (∀ c n l, (Err.overflow c n l).kind = .bufferOverflow) ∧
  (∀ c e a, (Err.mismatch c e a).kind = .responseMismatch) ∧
  (∀ n e, (Err.syncExhausted n e).kind = .syncExhausted) ∧
  (∀ st e, (Err.stepFailure st e).kind = .stepFailure) ∧
  (∀ c n l, (Err.incomplete c n l).kind = .incompleteResponse) ∧
  ErrKind.transportError.code = 1 ∧ ErrKind.timeout.code = 2 ∧ ErrKind.bufferOverflow.code = 3 ∧
  ErrKind.responseMismatch.code = 4 ∧ ErrKind.syncExhausted.code = 5 ∧ ErrKind.stepFailure.code = 6 ∧
  ErrKind.incompleteResponse.code = 7

/-- R191, R239, R241: a failed step other than Sync aborts the flash: one TIMELINE entry with the error's
kind, one DONE with the error inside StepFailure, and no further command. -/
def Obligations.StepFailureAbortsFlash : Prop :=
  ∀ (s : State) (e : Err), s.tx = .idle → s.mode = .flash → s.flashStep ≠ .none →
    s.flashStep.isSync = false → seqOnCmd (.err e) s = .next (flashFailed e s)

/-- R192, R185, R186: the success of a step outside the page loop: TIMELINE and TRACE record it, and the
next step's command is written; after EXIT_PROGMODE the operation is done with `true`. -/
def Obligations.StepSuccessBeginsNext : Prop :=
  ∀ (s : State) (buf : Bytes), s.tx = .idle → s.mode = .flash →
    (s.flashStep = .sync1 → seqOnCmd (.ok buf) s =
      .next (getSyncIssued { stepPassed .sync2 s with syncTry := 1, syncLast := none })) ∧
    (s.flashStep = .sync2 → seqOnCmd (.ok buf) s =
      .next (getSyncIssued { stepPassed .sync3 s with syncTry := 1, syncLast := none })) ∧
    (s.flashStep = .sync3 → seqOnCmd (.ok buf) s = .next (issuedAs
      (lengthOnlyRequest s.params.k.readSign [] (1 + s.profile.sig.length + 1) s.timeout)
      [s.params.k.readSign, s.params.k.eop] (stepPassed .signature s))) ∧
    (s.flashStep = .signature → seqOnCmd (.ok buf) s = .next (issuedAs
      (exactRequest s.params.k.setDevice s.profile.devparams [s.params.k.ok0, s.params.k.ok1]
        s.timeout)
      ([s.params.k.setDevice] ++ s.profile.devparams ++ [s.params.k.eop])
      (stepPassed .setOptions { s with sigResp := buf }))) ∧
    (s.flashStep = .setOptions → seqOnCmd (.ok buf) s = .next (issuedAs
      (exactRequest s.params.k.enterProgmode [] [s.params.k.ok0, s.params.k.ok1] s.timeout)
      [s.params.k.enterProgmode, s.params.k.eop] (stepPassed .enterProgmode s))) ∧
    (s.flashStep = .enterProgmode → 0 < s.image.length → seqOnCmd (.ok buf) s =
      .next (loadAddressIssued 0
        { stepPassed .upload s with pageAddr := 0, wordAddr := 0, pg := .loadAddr })) ∧
    (s.flashStep = .exitProgmode → seqOnCmd (.ok buf) s = .next (endedWith (.ok (.flag true))
      { s with
        timeline := s.timeline ++ [(.exitProgmode, .ok)]
        outs := s.outs ++ traceOf s.debug (.stepSucceeded .exitProgmode) }))

/-- R201, R192: an empty image: Upload and Verify succeed at once and no page command is written. -/
def Obligations.EmptyImageSkipsPages : Prop :=
  ∀ (s : State) (buf : Bytes), s.tx = .idle → s.mode = .flash → s.flashStep = .enterProgmode →
    s.image = [] → ∃ t, seqOnCmd (.ok buf) s = .next t ∧ t.flashStep = .exitProgmode ∧
      t.pg = .none ∧ t.tx = .writing ∧
      t.timeline = s.timeline ++ [(.enterProgmode, .ok), (.upload, .ok), (.verify, .ok)] ∧
      writes t.outs = writes s.outs ++ [[s.params.k.leaveProgmode, s.params.k.eop]]

/-! ### The paged transfer -/

/-- R9, R60, R203, R204, R205, R206: a read of the image gives the image's bytes from an address on, as many
as it asks for and the image has; and when LOAD_ADDRESS is acknowledged, the slice from the cursor to its
clipped end is read, byte for byte, and the page command of the step is written for it. -/
def Obligations.AcknowledgedAddressSendsPage : Prop :=
  (∀ (img : Bytes) (a n : Nat), (memRead img a n).length = min n (img.length - a) ∧
    ∀ x < n, (memRead img a n)[x]? = readImageByte img (a + x)) ∧
  ∀ (s : State) (buf : Bytes) (stop : Nat), s.tx = .idle → s.mode = .flash → s.pg = .loadAddr →
    s.pageAddr < s.image.length →
    stop = (match s.params.clipRule with
      | .literal => if s.image.length - s.pageAddr < s.profile.p then s.image.length - 1
          else s.pageAddr + s.profile.p
      | .fixed => min (s.pageAddr + s.profile.p) s.image.length) →
    ∃ d : Bytes, d.length = stop - s.pageAddr ∧
      (∀ x < d.length, d[x]? = readImageByte s.image (s.pageAddr + x)) ∧
      (s.flashStep = .upload → seqOnCmd (.ok buf) s =
        .next (progPageIssued d { s with slice := d, pg := .pageCmd })) ∧
      (s.flashStep = .verify → seqOnCmd (.ok buf) s =
        .next (readPageIssued
          (match s.params.readPageCount with
            | .pageSize => s.profile.p
            | .sliceLength => d.length)
          { s with slice := d, pg := .pageCmd }))

/-- R203, R207, R208, R212: when the page command is answered: Upload advances the cursor by the slice and
starts the settle delay; Verify does so iff the check passes, else the flash fails with the expected frame
and the actual one. The expected frame in that record is decision D21 of the spec, log entry 15. -/
def Obligations.TransferredPageAdvancesOrFails : Prop :=
  ∀ (s : State) (buf : Bytes), s.tx = .idle → s.mode = .flash → s.pg = .pageCmd →
    (s.flashStep = .upload → seqOnCmd (.ok buf) s = .next { s with
      pageAddr := s.pageAddr + s.slice.length, pg := .settle, settle := 0 }) ∧
    (s.flashStep = .verify → verifyOk s.params buf s.slice = true →
      seqOnCmd (.ok buf) s = .next { s with
        pageAddr := s.pageAddr + s.slice.length, pg := .settle, settle := 0 }) ∧
    (s.flashStep = .verify → verifyOk s.params buf s.slice = false →
      seqOnCmd (.ok buf) s = .next (flashFailed
        (.mismatch s.frame ([s.params.k.sof] ++ s.slice ++ [s.params.k.ok1]) buf) s))

/-- R207, R215: a response that echoes the slice between the marker and the OK marker passes the check; a
response of another length, or with a differing middle byte, fails it; the last byte counts only under
VERIFY_TRAILER_CHECK. -/
def Obligations.VerifyChecksMiddleBytes : Prop :=
  ∀ (p : Params) (d mid : Bytes) (a z : Byte),
    (mid.length = d.length →
      (verifyOk p ([a] ++ mid ++ [z]) d = true ↔
        mid = d ∧ (p.verifyTrailerCheck = true → z = p.k.ok1))) ∧
    (∀ buf : Bytes, buf.length ≠ d.length + 2 → verifyOk p buf d = false)

/-- R209, R210, R201, R202: the first three TICKs of the settle delay only count; the fourth writes the
LOAD_ADDRESS of the next iteration while the cursor is inside the image. -/
def Obligations.SettleDelayThenNextPage : Prop :=
  ∀ s : State, s.pg = .settle →
    (s.settle < 3 → exec .tick s = .next { s with settle := s.settle + 1 }) ∧
    (s.settle = 3 → s.pageAddr < s.image.length → exec .tick s =
      .next (loadAddressIssued (s.pageAddr / 2)
        { s with settle := 4, wordAddr := s.pageAddr / 2, pg := .loadAddr }))

/-- R209 to R211, R192: the fourth TICK with the cursor at the end of the image ends the loop: after
Upload, Verify starts over at cursor 0; after Verify, LEAVE_PROGMODE is written. -/
def Obligations.SettleDelayThenLoopEnd : Prop :=
  ∀ s : State, s.pg = .settle → s.tx = .idle → s.settle = 3 → s.image.length ≤ s.pageAddr →
    (s.flashStep = .upload → 0 < s.image.length → exec .tick s =
      .next (loadAddressIssued 0 { stepPassed .verify s with
        settle := 4, pageAddr := 0, wordAddr := 0, pg := .loadAddr })) ∧
    (s.flashStep = .verify → exec .tick s = .next (issuedAs
      (exactRequest s.params.k.leaveProgmode [] [s.params.k.ok0, s.params.k.ok1] s.timeout)
      [s.params.k.leaveProgmode, s.params.k.eop]
      { stepPassed .exitProgmode s with settle := 4, pg := .none }))

/-- R73, R270: while fewer ticks than the settle delay needs have come, a run of any events emits
nothing and stays in the delay. -/
def Obligations.SettleDelayEmitsNothing : Prop :=
  ∀ (s t : State) (es : List Instr), Quiescent s → s.pg = .settle →
    s.settle + tickCount es < 4 → run es s = .next t → t.outs = s.outs ∧ t.pg = .settle

/-- R214, R216: under `fixed`, the cursor after `k` iterations is `min (k * P) L`, and the loop has ended
after exactly `ceil(L / P)` of them. -/
def Obligations.FixedClippingCursors : Prop :=
  ∀ l p k : Nat, 1 ≤ p →
    (k ≤ (l + p - 1) / p → (clipEnd .fixed l p)^[k] 0 = min (k * p) l) ∧
    (k < (l + p - 1) / p ↔ min (k * p) l < l)

/-- R213: under `literal` with `L mod P ≠ 0`, the cursor never reaches `L`; from `L - 1` it does not move
and every slice is empty. -/
def Obligations.LiteralClippingNeverEnds : Prop :=
  ∀ l p : Nat, 1 ≤ p → l % p ≠ 0 →
    (∀ k, (clipEnd .literal l p)^[k] 0 < l) ∧
    (∀ k, l / p < k → (clipEnd .literal l p)^[k] 0 = l - 1) ∧ clipEnd .literal l p (l - 1) = l - 1

/-- R214, W5: the Upload loop of the machine under `fixed`: with every command acknowledged,
`ceil(L / P)` iterations from the first LOAD_ADDRESS write exactly the frames of the slices in order, and
then Verify begins. -/
def Obligations.FixedUploadSendsEverySlice : Prop :=
  ∀ s : State, InFlightOk s → s.params.k.wf = true →
    s.params.clipRule = .fixed → 1 ≤ s.profile.p → 0 < s.image.length →
    s.mode = .flash → s.flashStep = .upload → s.pg = .loadAddr → s.tx = .writing →
    s.pageAddr = 0 → s.wordAddr = 0 →
    ∃ t, run (ackIterations s.params.k ((s.image.length + s.profile.p - 1) / s.profile.p)) s = .next t ∧
      t.flashStep = .verify ∧ t.pg = .loadAddr ∧ t.pageAddr = 0 ∧
      t.timeline = s.timeline ++ [(.upload, .ok)] ∧
      [loadFrameAt s.params.k 0] ++ (writes t.outs).drop (writes s.outs).length =
        ((List.range ((s.image.length + s.profile.p - 1) / s.profile.p)).flatMap fun k =>
          [loadFrameAt s.params.k (k * s.profile.p),
            progFrame s.params.k (memRead s.image (k * s.profile.p) s.profile.p)]) ++
        [loadFrameAt s.params.k 0]

/-- R213, R275: the Upload loop of the machine under `literal` with `L mod P ≠ 0`: after any number `n` of
undisturbed iterations the engine is still in Upload and no DONE has been emitted; the frames written are
those of the full pages, of one short page without its last byte, and of empty pages at `L - 1`. Once it is
there, every further iteration writes `PROG_PAGE []` and `LOAD_ADDRESS ((L - 1) >> 1)` and leaves the cursor
where it is. -/
def Obligations.LiteralUploadNeverEnds : Prop :=
  ∀ (s : State) (n : Nat), InFlightOk s → s.params.k.wf = true →
    s.params.clipRule = .literal → 1 ≤ s.profile.p → s.image.length % s.profile.p ≠ 0 →
    s.mode = .flash → s.flashStep = .upload → s.pg = .loadAddr → s.tx = .writing →
    s.pageAddr = 0 → s.wordAddr = 0 →
    ∃ t new, run (ackIterations s.params.k n) s = .next t ∧ t.mode = .flash ∧ t.flashStep = .upload ∧
      t.pg = .loadAddr ∧ t.tx = .writing ∧ t.timeline = s.timeline ∧
      t.pageAddr = literalCursor s.image.length s.profile.p n ∧
      t.outs = s.outs ++ new ∧ (∀ r, .opDone r ∉ new) ∧
      [loadFrameAt s.params.k 0] ++ writes new =
        ((List.range n).flatMap fun i =>
          [loadFrameAt s.params.k (literalCursor s.image.length s.profile.p i),
            progFrame s.params.k (memRead s.image (literalCursor s.image.length s.profile.p i)
              (literalCursor s.image.length s.profile.p (i + 1) -
                literalCursor s.image.length s.profile.p i))]) ++
        [loadFrameAt s.params.k (literalCursor s.image.length s.profile.p n)] ∧
      (s.image.length / s.profile.p < n → ∃ u, run (ackIteration s.params.k) t = .next u ∧
        u.pageAddr = s.image.length - 1 ∧ u.outs = t.outs ++
          [.readReq, .write [s.params.k.progPage, 0, 0, s.params.k.memtype, s.params.k.eop],
            .readReq, .write [s.params.k.loadAddress, lo8 ((s.image.length - 1) / 2),
              hi8 ((s.image.length - 1) / 2), s.params.k.eop]])

/-! ### Invariants every step keeps -/

/-- R30, R43: the control table and the receiver's invariants. -/
def Obligations.StepKeepsQuiescent : Prop :=
  ∀ s t : State, Quiescent s → step s = .next t → Quiescent t

/-- R60, R203, R204, R208: the cursor and the slice stay inside the image. -/
def Obligations.StepKeepsPagesInImage : Prop :=
  ∀ s t : State, Quiescent s → PageInvariant s → step s = .next t → PageInvariant t

/-- R140, R110, R32, R33, R160 to R167: the command in flight is the one its position in the algorithm
issues; FRAME, RX_EXP and RX_TO belong to it. -/
def Obligations.StepKeepsCommandInFlight : Prop :=
  ∀ s t : State, Quiescent s → CommandInvariant s → InFlightOk s → step s = .next t →
    CommandInvariant t ∧ InFlightOk t

/-- R42, R40, R184: TIMELINE names the passed steps in order, no result while an operation runs, the Sync
attempt in its budget. -/
def Obligations.StepKeepsSession : Prop :=
  ∀ s t : State, Quiescent s → SessionInvariant s → step s = .next t → SessionInvariant t

/-! ### Frames -/

/-- R20, R21, R22, R23, R45: no instruction writes a parameter or the port; only START_FLASH writes IMAGE
(byte for byte) and PROFILE; only START_FLASH and START_SYNC write ATTEMPTS and TIMEOUT; only the START
events write DEBUG. -/
def Obligations.InputLatchesFrame : Prop :=
  ∀ (s t : State) (i : Instr), exec i s = .next t →
    t.params = s.params ∧ t.inq = s.inq ∧
    ((∀ img prof opts, i ≠ .startFlash img prof opts) →
      t.image.length = s.image.length ∧
      (∀ a, readImageByte t.image a = readImageByte s.image a) ∧ t.profile = s.profile ∧
      ((∀ a n, i ≠ .startSync a n) → t.attempts = s.attempts ∧ t.timeout = s.timeout) ∧
      (isStart i = false → t.debug = s.debug))

/-- R34 to R39, R45: which receiver registers each event may write: a wire command, a START and WACK_FAIL
none of them; EOS and READ_FAIL only RX_ACTIVE and RX_PEND; TICK also RX_EL; CHUNK also RX_SYNCED and
RX_BUF (and after an overflow the free counter). -/
def Obligations.ReceiverRegistersFrame : Prop :=
  ∀ (s t : State) (i : Instr), exec i s = .next t → i ≠ .wackOk →
    t.rxExp = s.rxExp ∧ t.rxTo = s.rxTo ∧
    (i ≠ .tick → t.rxEl = s.rxEl) ∧
    ((∀ c, i ≠ .chunk c) → t.rxSynced = s.rxSynced ∧ t.rxBuf = s.rxBuf ∧ t.freeCtr = s.freeCtr) ∧
    ((∀ c, i ≠ .chunk c) → i ≠ .eos → (∀ x, i ≠ .readFail x) → i ≠ .tick →
      t.rxActive = s.rxActive ∧ t.rxPend = s.rxPend)

/-- R182, R183, R45: outside FLASH no event but START_FLASH writes a register of the flash session: STEP
(START_SYNC and START_COMMAND set it to NONE), PAGEADDR, WORDADDR, SLICE, SETTLE, SIG_RESP and TIMELINE
keep their values, so the last flash's stay readable. -/
def Obligations.SessionRegistersFrame : Prop :=
  ∀ (s t : State) (i : Instr), Quiescent s → s.mode ≠ .flash → exec i s = .next t →
    (∀ img prof opts, i ≠ .startFlash img prof opts) →
    t.pageAddr = s.pageAddr ∧ t.wordAddr = s.wordAddr ∧ t.slice = s.slice ∧ t.settle = s.settle ∧
    t.sigResp = s.sigResp ∧ t.timeline = s.timeline ∧ t.pg = .none ∧
    (isStart i = false → t.flashStep = s.flashStep) ∧ (isStart i = true → t.flashStep = .none)

/-! ### Whole-machine rules -/

/-- R10, R72: outputs are only appended; one step issues at most one WRITE or READ_REQ; a WRITE leaves the
transceiver waiting for that frame's acknowledgment, and a READ_REQ leaves one read outstanding. -/
def Obligations.OneRequestPerStep : Prop :=
  ∀ (s t : State) (i : Instr), Quiescent s → exec i s = .next t →
    ∃ new, t.outs = s.outs ++ new ∧ new.countP isRequest ≤ 1 ∧
      (∀ f, .write f ∈ new → t.tx = .writing ∧ t.frame = f) ∧
      (.readReq ∈ new → t.tx = .receiving ∧ t.rxPend = true)

/-- R194, R196, R241: an operation ends exactly at the step that emits DONE, whose result RESULT then
holds; after it no command is in flight, no read is outstanding, and only TICK and START_* are enabled. -/
def Obligations.DoneEndsOperation : Prop :=
  ∀ (s t : State) (i : Instr), Quiescent s → exec i s = .next t →
    ∃ new, t.outs = s.outs ++ new ∧
      (∀ r, .opDone r ∈ new → t.result = some r ∧ t.mode = .idle ∧ t.tx = .idle ∧
        t.rxPend = false ∧ ∀ j, enabled j t = true → j = .tick ∨ isStart j = true) ∧
      (s.mode ≠ .idle → t.mode = .idle → ∃ r, .opDone r ∈ new)

/-- R250: DEBUG gates TRACE and nothing else. A step that ends with DEBUG = false emits no TRACE. And two
states that differ only in DEBUG and in the TRACE outputs run events that differ only in START_FLASH's debug
option to states that differ only so. -/
def Obligations.TraceDoesNotInfluenceControl : Prop :=
  (∀ (s t : State) (i : Instr), exec i s = .next t → t.debug = false →
    ∃ new, t.outs = s.outs ++ new ∧ ∀ ev, .trace ev ∉ new) ∧
  ∀ (s t s' : State) (es es' : List Instr), es.map (withDebug false) = es'.map (withDebug false) →
    untraced t.outs = untraced s.outs → t = { s with debug := t.debug, outs := t.outs } →
    run es s = .next s' →
    ∃ t', run es' t = .next t' ∧ untraced t'.outs = untraced s'.outs ∧
      t' = { s' with debug := t'.debug, outs := t'.outs }

/-- R261, R262: which operation ran before does not change what a new one does: from any two quiescent idle
states of one instance, a START event and any events after it give the same outputs and result; where it is
START_FLASH, also the same TIMELINE, SIG_RESP and PAGEADDR, which START_SYNC and START_COMMAND leave as the
last flash left them. -/
def Obligations.OperationForgetsThePast : Prop :=
  ∀ (s t s' : State) (i : Instr) (es : List Instr), isStart i = true →
    Quiescent s → Quiescent t → s.mode = .idle → t.mode = .idle → s.params = t.params →
    run (i :: es) s = .next s' →
    ∃ t', run (i :: es) t = .next t' ∧
      t'.outs.drop t.outs.length = s'.outs.drop s.outs.length ∧ t'.result = s'.result ∧
      t'.mode = s'.mode ∧ t'.flashStep = s'.flashStep ∧
      ((∃ img prof opts, i = .startFlash img prof opts) →
        t'.timeline = s'.timeline ∧ t'.sigResp = s'.sigResp ∧ t'.pageAddr = s'.pageAddr)

/-- R197, W8: a device that never sends the marker: three GET_SYNCs, each ended by Timeout at its TIMEOUT-th
tick, then SyncExhausted inside the StepFailure of SYNC1, and no further command; traced or not. -/
def Obligations.SilentDeviceExhaustsSync : Prop :=
  ∀ (s : State) (img : Bytes) (prof : Profile) (opts : Options) (e1 e2 e3 : List Instr),
    s.mode = .idle → prof.wf = true → opts.attempts = 3 →
    (∀ es ∈ [e1, e2, e3], tickCount es + 1 = opts.timeout ∧
      ∀ e ∈ es, isSilent s.params.k.sof e = true) →
    ∃ t, run ([.startFlash img prof opts] ++ (.wackOk :: e1 ++ [.tick]) ++ (.wackOk :: e2 ++ [.tick]) ++
        (.wackOk :: e3 ++ [.tick])) s = .next t ∧
      t.mode = .idle ∧
      t.result = some (.err (.stepFailure .sync1 (.syncExhausted 3
        (.timeout (some [s.params.k.getSync, s.params.k.eop]) opts.timeout)))) ∧
      t.timeline = [(.sync1, .err .syncExhausted)] ∧
      writes t.outs = writes s.outs ++ List.replicate 3 [s.params.k.getSync, s.params.k.eop]

/-- R195, R215: the frames a successful flash writes, in order: the GET_SYNCs of three Sync invocations,
READ_SIGN, SET_DEVICE, ENTER_PROGMODE, one LOAD_ADDRESS and PROG_PAGE for each cursor of the page loop,
one LOAD_ADDRESS and READ_PAGE for each cursor of the same loop, and LEAVE_PROGMODE; TIMELINE then holds
the nine steps, all ok. The TICKs between pages are stated by SettleDelayEmitsNothing. -/
def Obligations.SuccessfulFlashFrames : Prop :=
  ∀ (s t : State) (img : Bytes) (prof : Profile) (opts : Options) (es : List Instr),
    Quiescent s → s.mode = .idle → (∀ e ∈ es, isStart e = false) →
    run (.startFlash img prof opts :: es) s = .next t → t.result = some (.ok (.flag true)) →
    ∃ (a1 a2 a3 : Nat) (cursors : List Nat),
      (1 ≤ a1 ∧ a1 ≤ max opts.attempts 1) ∧ (1 ≤ a2 ∧ a2 ≤ max opts.attempts 1) ∧
      (1 ≤ a3 ∧ a3 ≤ max opts.attempts 1) ∧
      IsPageRun s.params.clipRule img.length prof.p 0 cursors ∧
      writes t.outs = writes s.outs ++
        List.replicate (a1 + a2 + a3) [s.params.k.getSync, s.params.k.eop] ++
        [[s.params.k.readSign, s.params.k.eop],
          [s.params.k.setDevice] ++ prof.devparams ++ [s.params.k.eop],
          [s.params.k.enterProgmode, s.params.k.eop]] ++
        (cursors.flatMap fun a => [loadFrameAt s.params.k a,
          progFrame s.params.k (sliceAt s.params.clipRule img prof.p a)]) ++
        (cursors.flatMap fun a => [loadFrameAt s.params.k a,
          readFrame s.params.k (countFor s.params prof.p
            (sliceAt s.params.clipRule img prof.p a).length)]) ++
        [[s.params.k.leaveProgmode, s.params.k.eop]] ∧
      t.timeline = (FlashStep.exitProgmode.before ++ [FlashStep.exitProgmode]).map fun st => (st, .ok)
end

