-- ==== Sys2Proof/Laws/Codec.lean ====
section
/-!
SUPPORT. The operand fields of a port record and the byte splits of R88: each reader gives back what its
writer wrote, whatever follows.
-/

namespace Sys2Proof

/-- R88: two bytes carry a value below `2^16` whole. -/
theorem word16_hi8_lo8 {n : Nat} (h : n < 2 ^ 16) : word16 (hi8 n) (lo8 n) = n := by
  simp only [word16, hi8, lo8, Nat.shiftRight_eq_div_pow, BitVec.toNat_ofNat]
  omega

/-- A number is read back from its digits. -/
theorem readNat_writeNatDigits (fuel n : Nat) (h : n ≤ fuel) (rest : Bytes) :
    readNat (writeNatDigits fuel n ++ rest) = some (n, rest) := by
  induction fuel generalizing n with
  | zero =>
    have h0 : n = 0 := by omega
    subst h0
    simp [writeNatDigits, readNat]
  | succ f ih =>
    unfold writeNatDigits
    split
    · have h1 : n % 256 = n := by omega
      simp [readNat, *]
    · have h1 : (128 + n % 128) % 256 = 128 + n % 128 := by omega
      have h2 : n / 128 ≠ 0 := by omega
      simp only [List.cons_append, readNat, BitVec.toNat_ofNat, h1]
      rw [if_neg (by omega), ih _ (by omega)]
      simp [h2]
      omega

/-- A number is read back from its field. -/
theorem readNat_writeNat (n : Nat) (rest : Bytes) : readNat (writeNat n ++ rest) = some (n, rest) :=
  readNat_writeNatDigits n n le_rfl rest

/-- Bytes of a known number are read back. -/
theorem readExact_append {n : Nat} {b : Bytes} (h : b.length = n) (rest : Bytes) :
    readExact n (b ++ rest) = some (b, rest) := by
  subst h
  simp [readExact]

/-- A byte sequence is read back from its field. -/
theorem readBytes_writeBytes (b rest : Bytes) : readBytes (writeBytes b ++ rest) = some (b, rest) := by
  simp [readBytes, writeBytes, readNat_writeNat, readExact_append]

/-- A truth value is read back from its field. -/
theorem readBool_writeBool (b : Bool) (rest : Bytes) : readBool (writeBool b ++ rest) = some (b, rest) := by
  cases b <;> simp [readBool, writeBool]

/-- A request's form is read back from its field. -/
theorem readForm_writeForm (f : ReqForm) (rest : Bytes) : readForm (writeForm f ++ rest) = some (f, rest) := by
  cases f <;> simp [readForm, writeForm, readBool_writeBool]

/-- An optional value is read back from its field where the value is from its own. -/
theorem readOption_writeOption {α : Type} {w : α → Bytes} {r : Bytes → Option (α × Bytes)}
    (h : ∀ a rest, r (w a ++ rest) = some (a, rest)) (o : Option α) (rest : Bytes) :
    readOption r (writeOption w o ++ rest) = some (o, rest) := by
  cases o <;> simp [readOption, writeOption, readBool, h]

/-- A frame is closed by its terminator. -/
theorem closeFrame_eop (k : KTable) (i : Instr) (rest : Bytes) :
    closeFrame k i (k.eop :: rest) = .ok (i, rest) := by
  simp [closeFrame, expectByte]

end Sys2Proof
end

