-- ==== Sys2Proof/Laws/State.lean ====
section
/-!
SUPPORT. One lemma per field and named operation: what the operation leaves in the field. A proof about
an operation cites these and never unfolds the record update.
-/

namespace Sys2Proof.Machine

/-- R250: a trace appends the TRACE output that DEBUG lets through, and nothing else. -/
theorem traceEvent_eq (ev : TraceEvent) (s : State) :
    traceEvent ev s = { s with outs := s.outs ++ traceOf s.debug ev } := by
  unfold traceEvent traceOf emit
  split <;> simp


/-! ### `emit` -/

@[simp] theorem emit_params (o : Output) (s : State) : (emit o s).params = s.params := rfl
@[simp] theorem emit_image (o : Output) (s : State) : (emit o s).image = s.image := rfl
@[simp] theorem emit_profile (o : Output) (s : State) : (emit o s).profile = s.profile := rfl
@[simp] theorem emit_attempts (o : Output) (s : State) : (emit o s).attempts = s.attempts := rfl
@[simp] theorem emit_timeout (o : Output) (s : State) : (emit o s).timeout = s.timeout := rfl
@[simp] theorem emit_debug (o : Output) (s : State) : (emit o s).debug = s.debug := rfl
@[simp] theorem emit_mode (o : Output) (s : State) : (emit o s).mode = s.mode := rfl
@[simp] theorem emit_flashStep (o : Output) (s : State) : (emit o s).flashStep = s.flashStep := rfl
@[simp] theorem emit_pg (o : Output) (s : State) : (emit o s).pg = s.pg := rfl
@[simp] theorem emit_syncTry (o : Output) (s : State) : (emit o s).syncTry = s.syncTry := rfl
@[simp] theorem emit_syncLast (o : Output) (s : State) : (emit o s).syncLast = s.syncLast := rfl
@[simp] theorem emit_pageAddr (o : Output) (s : State) : (emit o s).pageAddr = s.pageAddr := rfl
@[simp] theorem emit_wordAddr (o : Output) (s : State) : (emit o s).wordAddr = s.wordAddr := rfl
@[simp] theorem emit_slice (o : Output) (s : State) : (emit o s).slice = s.slice := rfl
@[simp] theorem emit_settle (o : Output) (s : State) : (emit o s).settle = s.settle := rfl
@[simp] theorem emit_tx (o : Output) (s : State) : (emit o s).tx = s.tx := rfl
@[simp] theorem emit_req (o : Output) (s : State) : (emit o s).req = s.req := rfl
@[simp] theorem emit_frame (o : Output) (s : State) : (emit o s).frame = s.frame := rfl
@[simp] theorem emit_rxActive (o : Output) (s : State) : (emit o s).rxActive = s.rxActive := rfl
@[simp] theorem emit_rxPend (o : Output) (s : State) : (emit o s).rxPend = s.rxPend := rfl
@[simp] theorem emit_rxSynced (o : Output) (s : State) : (emit o s).rxSynced = s.rxSynced := rfl
@[simp] theorem emit_rxBuf (o : Output) (s : State) : (emit o s).rxBuf = s.rxBuf := rfl
@[simp] theorem emit_rxExp (o : Output) (s : State) : (emit o s).rxExp = s.rxExp := rfl
@[simp] theorem emit_rxTo (o : Output) (s : State) : (emit o s).rxTo = s.rxTo := rfl
@[simp] theorem emit_rxEl (o : Output) (s : State) : (emit o s).rxEl = s.rxEl := rfl
@[simp] theorem emit_result (o : Output) (s : State) : (emit o s).result = s.result := rfl
@[simp] theorem emit_sigResp (o : Output) (s : State) : (emit o s).sigResp = s.sigResp := rfl
@[simp] theorem emit_timeline (o : Output) (s : State) : (emit o s).timeline = s.timeline := rfl
@[simp] theorem emit_inq (o : Output) (s : State) : (emit o s).inq = s.inq := rfl
@[simp] theorem emit_outs (o : Output) (s : State) : (emit o s).outs = s.outs ++ [o] := rfl
@[simp] theorem emit_freeCtr (o : Output) (s : State) : (emit o s).freeCtr = s.freeCtr := rfl

/-! ### `traceEvent` -/

@[simp] theorem traceEvent_params (ev : TraceEvent) (s : State) :
    (traceEvent ev s).params = s.params :=
  by rw [traceEvent_eq]
@[simp] theorem traceEvent_image (ev : TraceEvent) (s : State) :
    (traceEvent ev s).image = s.image :=
  by rw [traceEvent_eq]
@[simp] theorem traceEvent_profile (ev : TraceEvent) (s : State) :
    (traceEvent ev s).profile = s.profile :=
  by rw [traceEvent_eq]
@[simp] theorem traceEvent_attempts (ev : TraceEvent) (s : State) :
    (traceEvent ev s).attempts = s.attempts :=
  by rw [traceEvent_eq]
@[simp] theorem traceEvent_timeout (ev : TraceEvent) (s : State) :
    (traceEvent ev s).timeout = s.timeout :=
  by rw [traceEvent_eq]
@[simp] theorem traceEvent_debug (ev : TraceEvent) (s : State) :
    (traceEvent ev s).debug = s.debug :=
  by rw [traceEvent_eq]
@[simp] theorem traceEvent_mode (ev : TraceEvent) (s : State) :
    (traceEvent ev s).mode = s.mode :=
  by rw [traceEvent_eq]
@[simp] theorem traceEvent_flashStep (ev : TraceEvent) (s : State) :
    (traceEvent ev s).flashStep = s.flashStep :=
  by rw [traceEvent_eq]
@[simp] theorem traceEvent_pg (ev : TraceEvent) (s : State) :
    (traceEvent ev s).pg = s.pg :=
  by rw [traceEvent_eq]
@[simp] theorem traceEvent_syncTry (ev : TraceEvent) (s : State) :
    (traceEvent ev s).syncTry = s.syncTry :=
  by rw [traceEvent_eq]
@[simp] theorem traceEvent_syncLast (ev : TraceEvent) (s : State) :
    (traceEvent ev s).syncLast = s.syncLast :=
  by rw [traceEvent_eq]
@[simp] theorem traceEvent_pageAddr (ev : TraceEvent) (s : State) :
    (traceEvent ev s).pageAddr = s.pageAddr :=
  by rw [traceEvent_eq]
@[simp] theorem traceEvent_wordAddr (ev : TraceEvent) (s : State) :
    (traceEvent ev s).wordAddr = s.wordAddr :=
  by rw [traceEvent_eq]
@[simp] theorem traceEvent_slice (ev : TraceEvent) (s : State) :
    (traceEvent ev s).slice = s.slice :=
  by rw [traceEvent_eq]
@[simp] theorem traceEvent_settle (ev : TraceEvent) (s : State) :
    (traceEvent ev s).settle = s.settle :=
  by rw [traceEvent_eq]
@[simp] theorem traceEvent_tx (ev : TraceEvent) (s : State) :
    (traceEvent ev s).tx = s.tx :=
  by rw [traceEvent_eq]
@[simp] theorem traceEvent_req (ev : TraceEvent) (s : State) :
    (traceEvent ev s).req = s.req :=
  by rw [traceEvent_eq]
@[simp] theorem traceEvent_frame (ev : TraceEvent) (s : State) :
    (traceEvent ev s).frame = s.frame :=
  by rw [traceEvent_eq]
@[simp] theorem traceEvent_rxActive (ev : TraceEvent) (s : State) :
    (traceEvent ev s).rxActive = s.rxActive :=
  by rw [traceEvent_eq]
@[simp] theorem traceEvent_rxPend (ev : TraceEvent) (s : State) :
    (traceEvent ev s).rxPend = s.rxPend :=
  by rw [traceEvent_eq]
@[simp] theorem traceEvent_rxSynced (ev : TraceEvent) (s : State) :
    (traceEvent ev s).rxSynced = s.rxSynced :=
  by rw [traceEvent_eq]
@[simp] theorem traceEvent_rxBuf (ev : TraceEvent) (s : State) :
    (traceEvent ev s).rxBuf = s.rxBuf :=
  by rw [traceEvent_eq]
@[simp] theorem traceEvent_rxExp (ev : TraceEvent) (s : State) :
    (traceEvent ev s).rxExp = s.rxExp :=
  by rw [traceEvent_eq]
@[simp] theorem traceEvent_rxTo (ev : TraceEvent) (s : State) :
    (traceEvent ev s).rxTo = s.rxTo :=
  by rw [traceEvent_eq]
@[simp] theorem traceEvent_rxEl (ev : TraceEvent) (s : State) :
    (traceEvent ev s).rxEl = s.rxEl :=
  by rw [traceEvent_eq]
@[simp] theorem traceEvent_result (ev : TraceEvent) (s : State) :
    (traceEvent ev s).result = s.result :=
  by rw [traceEvent_eq]
@[simp] theorem traceEvent_sigResp (ev : TraceEvent) (s : State) :
    (traceEvent ev s).sigResp = s.sigResp :=
  by rw [traceEvent_eq]
@[simp] theorem traceEvent_timeline (ev : TraceEvent) (s : State) :
    (traceEvent ev s).timeline = s.timeline :=
  by rw [traceEvent_eq]
@[simp] theorem traceEvent_inq (ev : TraceEvent) (s : State) :
    (traceEvent ev s).inq = s.inq :=
  by rw [traceEvent_eq]
@[simp] theorem traceEvent_outs (ev : TraceEvent) (s : State) :
    (traceEvent ev s).outs = s.outs ++ traceOf s.debug ev :=
  by rw [traceEvent_eq]
@[simp] theorem traceEvent_freeCtr (ev : TraceEvent) (s : State) :
    (traceEvent ev s).freeCtr = s.freeCtr :=
  by rw [traceEvent_eq]

/-! ### `cmdIssue` -/

@[simp] theorem cmdIssue_params (q : Request) (s : State) : (cmdIssue q s).params = s.params := rfl
@[simp] theorem cmdIssue_image (q : Request) (s : State) : (cmdIssue q s).image = s.image := rfl
@[simp] theorem cmdIssue_profile (q : Request) (s : State) : (cmdIssue q s).profile = s.profile := rfl
@[simp] theorem cmdIssue_attempts (q : Request) (s : State) : (cmdIssue q s).attempts = s.attempts := rfl
@[simp] theorem cmdIssue_timeout (q : Request) (s : State) : (cmdIssue q s).timeout = s.timeout := rfl
@[simp] theorem cmdIssue_debug (q : Request) (s : State) : (cmdIssue q s).debug = s.debug := rfl
@[simp] theorem cmdIssue_mode (q : Request) (s : State) : (cmdIssue q s).mode = s.mode := rfl
@[simp] theorem cmdIssue_flashStep (q : Request) (s : State) : (cmdIssue q s).flashStep = s.flashStep := rfl
@[simp] theorem cmdIssue_pg (q : Request) (s : State) : (cmdIssue q s).pg = s.pg := rfl
@[simp] theorem cmdIssue_syncTry (q : Request) (s : State) : (cmdIssue q s).syncTry = s.syncTry := rfl
@[simp] theorem cmdIssue_syncLast (q : Request) (s : State) : (cmdIssue q s).syncLast = s.syncLast := rfl
@[simp] theorem cmdIssue_pageAddr (q : Request) (s : State) : (cmdIssue q s).pageAddr = s.pageAddr := rfl
@[simp] theorem cmdIssue_wordAddr (q : Request) (s : State) : (cmdIssue q s).wordAddr = s.wordAddr := rfl
@[simp] theorem cmdIssue_slice (q : Request) (s : State) : (cmdIssue q s).slice = s.slice := rfl
@[simp] theorem cmdIssue_settle (q : Request) (s : State) : (cmdIssue q s).settle = s.settle := rfl
@[simp] theorem cmdIssue_tx (q : Request) (s : State) : (cmdIssue q s).tx = .writing := rfl
@[simp] theorem cmdIssue_req (q : Request) (s : State) : (cmdIssue q s).req = q := rfl
@[simp] theorem cmdIssue_frame (q : Request) (s : State) :
    (cmdIssue q s).frame = buildFrame s.params.k q :=
  rfl
@[simp] theorem cmdIssue_rxActive (q : Request) (s : State) : (cmdIssue q s).rxActive = s.rxActive := rfl
@[simp] theorem cmdIssue_rxPend (q : Request) (s : State) : (cmdIssue q s).rxPend = s.rxPend := rfl
@[simp] theorem cmdIssue_rxSynced (q : Request) (s : State) : (cmdIssue q s).rxSynced = s.rxSynced := rfl
@[simp] theorem cmdIssue_rxBuf (q : Request) (s : State) : (cmdIssue q s).rxBuf = s.rxBuf := rfl
@[simp] theorem cmdIssue_rxExp (q : Request) (s : State) : (cmdIssue q s).rxExp = s.rxExp := rfl
@[simp] theorem cmdIssue_rxTo (q : Request) (s : State) : (cmdIssue q s).rxTo = s.rxTo := rfl
@[simp] theorem cmdIssue_rxEl (q : Request) (s : State) : (cmdIssue q s).rxEl = s.rxEl := rfl
@[simp] theorem cmdIssue_result (q : Request) (s : State) : (cmdIssue q s).result = s.result := rfl
@[simp] theorem cmdIssue_sigResp (q : Request) (s : State) : (cmdIssue q s).sigResp = s.sigResp := rfl
@[simp] theorem cmdIssue_timeline (q : Request) (s : State) : (cmdIssue q s).timeline = s.timeline := rfl
@[simp] theorem cmdIssue_inq (q : Request) (s : State) : (cmdIssue q s).inq = s.inq := rfl
@[simp] theorem cmdIssue_outs (q : Request) (s : State) :
    (cmdIssue q s).outs = s.outs ++ [.write (buildFrame s.params.k q)] :=
  rfl
@[simp] theorem cmdIssue_freeCtr (q : Request) (s : State) : (cmdIssue q s).freeCtr = s.freeCtr := rfl

/-! ### `rxStart` -/

@[simp] theorem rxStart_params (n t : Nat) (s : State) : (rxStart n t s).params = s.params := rfl
@[simp] theorem rxStart_image (n t : Nat) (s : State) : (rxStart n t s).image = s.image := rfl
@[simp] theorem rxStart_profile (n t : Nat) (s : State) : (rxStart n t s).profile = s.profile := rfl
@[simp] theorem rxStart_attempts (n t : Nat) (s : State) : (rxStart n t s).attempts = s.attempts := rfl
@[simp] theorem rxStart_timeout (n t : Nat) (s : State) : (rxStart n t s).timeout = s.timeout := rfl
@[simp] theorem rxStart_debug (n t : Nat) (s : State) : (rxStart n t s).debug = s.debug := rfl
@[simp] theorem rxStart_mode (n t : Nat) (s : State) : (rxStart n t s).mode = s.mode := rfl
@[simp] theorem rxStart_flashStep (n t : Nat) (s : State) : (rxStart n t s).flashStep = s.flashStep := rfl
@[simp] theorem rxStart_pg (n t : Nat) (s : State) : (rxStart n t s).pg = s.pg := rfl
@[simp] theorem rxStart_syncTry (n t : Nat) (s : State) : (rxStart n t s).syncTry = s.syncTry := rfl
@[simp] theorem rxStart_syncLast (n t : Nat) (s : State) : (rxStart n t s).syncLast = s.syncLast := rfl
@[simp] theorem rxStart_pageAddr (n t : Nat) (s : State) : (rxStart n t s).pageAddr = s.pageAddr := rfl
@[simp] theorem rxStart_wordAddr (n t : Nat) (s : State) : (rxStart n t s).wordAddr = s.wordAddr := rfl
@[simp] theorem rxStart_slice (n t : Nat) (s : State) : (rxStart n t s).slice = s.slice := rfl
@[simp] theorem rxStart_settle (n t : Nat) (s : State) : (rxStart n t s).settle = s.settle := rfl
@[simp] theorem rxStart_tx (n t : Nat) (s : State) : (rxStart n t s).tx = .receiving := rfl
@[simp] theorem rxStart_req (n t : Nat) (s : State) : (rxStart n t s).req = s.req := rfl
@[simp] theorem rxStart_frame (n t : Nat) (s : State) : (rxStart n t s).frame = s.frame := rfl
@[simp] theorem rxStart_rxActive (n t : Nat) (s : State) : (rxStart n t s).rxActive = true := rfl
@[simp] theorem rxStart_rxPend (n t : Nat) (s : State) : (rxStart n t s).rxPend = true := rfl
@[simp] theorem rxStart_rxSynced (n t : Nat) (s : State) : (rxStart n t s).rxSynced = false := rfl
@[simp] theorem rxStart_rxBuf (n t : Nat) (s : State) : (rxStart n t s).rxBuf = [] := rfl
@[simp] theorem rxStart_rxExp (n t : Nat) (s : State) : (rxStart n t s).rxExp = n := rfl
@[simp] theorem rxStart_rxTo (n t : Nat) (s : State) : (rxStart n t s).rxTo = t := rfl
@[simp] theorem rxStart_rxEl (n t : Nat) (s : State) : (rxStart n t s).rxEl = 0 := rfl
@[simp] theorem rxStart_result (n t : Nat) (s : State) : (rxStart n t s).result = s.result := rfl
@[simp] theorem rxStart_sigResp (n t : Nat) (s : State) : (rxStart n t s).sigResp = s.sigResp := rfl
@[simp] theorem rxStart_timeline (n t : Nat) (s : State) : (rxStart n t s).timeline = s.timeline := rfl
@[simp] theorem rxStart_inq (n t : Nat) (s : State) : (rxStart n t s).inq = s.inq := rfl
@[simp] theorem rxStart_outs (n t : Nat) (s : State) : (rxStart n t s).outs = s.outs ++ [.readReq] := rfl
@[simp] theorem rxStart_freeCtr (n t : Nat) (s : State) : (rxStart n t s).freeCtr = s.freeCtr := rfl

/-! ### `continueRead` -/

@[simp] theorem continueRead_params (s : State) : (continueRead s).params = s.params := rfl
@[simp] theorem continueRead_image (s : State) : (continueRead s).image = s.image := rfl
@[simp] theorem continueRead_profile (s : State) : (continueRead s).profile = s.profile := rfl
@[simp] theorem continueRead_attempts (s : State) : (continueRead s).attempts = s.attempts := rfl
@[simp] theorem continueRead_timeout (s : State) : (continueRead s).timeout = s.timeout := rfl
@[simp] theorem continueRead_debug (s : State) : (continueRead s).debug = s.debug := rfl
@[simp] theorem continueRead_mode (s : State) : (continueRead s).mode = s.mode := rfl
@[simp] theorem continueRead_flashStep (s : State) : (continueRead s).flashStep = s.flashStep := rfl
@[simp] theorem continueRead_pg (s : State) : (continueRead s).pg = s.pg := rfl
@[simp] theorem continueRead_syncTry (s : State) : (continueRead s).syncTry = s.syncTry := rfl
@[simp] theorem continueRead_syncLast (s : State) : (continueRead s).syncLast = s.syncLast := rfl
@[simp] theorem continueRead_pageAddr (s : State) : (continueRead s).pageAddr = s.pageAddr := rfl
@[simp] theorem continueRead_wordAddr (s : State) : (continueRead s).wordAddr = s.wordAddr := rfl
@[simp] theorem continueRead_slice (s : State) : (continueRead s).slice = s.slice := rfl
@[simp] theorem continueRead_settle (s : State) : (continueRead s).settle = s.settle := rfl
@[simp] theorem continueRead_tx (s : State) : (continueRead s).tx = s.tx := rfl
@[simp] theorem continueRead_req (s : State) : (continueRead s).req = s.req := rfl
@[simp] theorem continueRead_frame (s : State) : (continueRead s).frame = s.frame := rfl
@[simp] theorem continueRead_rxActive (s : State) : (continueRead s).rxActive = s.rxActive := rfl
@[simp] theorem continueRead_rxPend (s : State) : (continueRead s).rxPend = true := rfl
@[simp] theorem continueRead_rxSynced (s : State) : (continueRead s).rxSynced = s.rxSynced := rfl
@[simp] theorem continueRead_rxBuf (s : State) : (continueRead s).rxBuf = s.rxBuf := rfl
@[simp] theorem continueRead_rxExp (s : State) : (continueRead s).rxExp = s.rxExp := rfl
@[simp] theorem continueRead_rxTo (s : State) : (continueRead s).rxTo = s.rxTo := rfl
@[simp] theorem continueRead_rxEl (s : State) : (continueRead s).rxEl = s.rxEl := rfl
@[simp] theorem continueRead_result (s : State) : (continueRead s).result = s.result := rfl
@[simp] theorem continueRead_sigResp (s : State) : (continueRead s).sigResp = s.sigResp := rfl
@[simp] theorem continueRead_timeline (s : State) : (continueRead s).timeline = s.timeline := rfl
@[simp] theorem continueRead_inq (s : State) : (continueRead s).inq = s.inq := rfl
@[simp] theorem continueRead_outs (s : State) : (continueRead s).outs = s.outs ++ [.readReq] := rfl
@[simp] theorem continueRead_freeCtr (s : State) : (continueRead s).freeCtr = s.freeCtr := rfl

/-! ### `finish` -/

@[simp] theorem finish_params (r : OpResult) (s : State) : (finish r s).params = s.params := rfl
@[simp] theorem finish_image (r : OpResult) (s : State) : (finish r s).image = s.image := rfl
@[simp] theorem finish_profile (r : OpResult) (s : State) : (finish r s).profile = s.profile := rfl
@[simp] theorem finish_attempts (r : OpResult) (s : State) : (finish r s).attempts = s.attempts := rfl
@[simp] theorem finish_timeout (r : OpResult) (s : State) : (finish r s).timeout = s.timeout := rfl
@[simp] theorem finish_debug (r : OpResult) (s : State) : (finish r s).debug = s.debug := rfl
@[simp] theorem finish_mode (r : OpResult) (s : State) : (finish r s).mode = .idle := rfl
@[simp] theorem finish_flashStep (r : OpResult) (s : State) : (finish r s).flashStep = s.flashStep := rfl
@[simp] theorem finish_pg (r : OpResult) (s : State) : (finish r s).pg = .none := rfl
@[simp] theorem finish_syncTry (r : OpResult) (s : State) : (finish r s).syncTry = s.syncTry := rfl
@[simp] theorem finish_syncLast (r : OpResult) (s : State) : (finish r s).syncLast = s.syncLast := rfl
@[simp] theorem finish_pageAddr (r : OpResult) (s : State) : (finish r s).pageAddr = s.pageAddr := rfl
@[simp] theorem finish_wordAddr (r : OpResult) (s : State) : (finish r s).wordAddr = s.wordAddr := rfl
@[simp] theorem finish_slice (r : OpResult) (s : State) : (finish r s).slice = s.slice := rfl
@[simp] theorem finish_settle (r : OpResult) (s : State) : (finish r s).settle = s.settle := rfl
@[simp] theorem finish_tx (r : OpResult) (s : State) : (finish r s).tx = s.tx := rfl
@[simp] theorem finish_req (r : OpResult) (s : State) : (finish r s).req = s.req := rfl
@[simp] theorem finish_frame (r : OpResult) (s : State) : (finish r s).frame = s.frame := rfl
@[simp] theorem finish_rxActive (r : OpResult) (s : State) : (finish r s).rxActive = s.rxActive := rfl
@[simp] theorem finish_rxPend (r : OpResult) (s : State) : (finish r s).rxPend = s.rxPend := rfl
@[simp] theorem finish_rxSynced (r : OpResult) (s : State) : (finish r s).rxSynced = s.rxSynced := rfl
@[simp] theorem finish_rxBuf (r : OpResult) (s : State) : (finish r s).rxBuf = s.rxBuf := rfl
@[simp] theorem finish_rxExp (r : OpResult) (s : State) : (finish r s).rxExp = s.rxExp := rfl
@[simp] theorem finish_rxTo (r : OpResult) (s : State) : (finish r s).rxTo = s.rxTo := rfl
@[simp] theorem finish_rxEl (r : OpResult) (s : State) : (finish r s).rxEl = s.rxEl := rfl
@[simp] theorem finish_result (r : OpResult) (s : State) : (finish r s).result = some r := rfl
@[simp] theorem finish_sigResp (r : OpResult) (s : State) : (finish r s).sigResp = s.sigResp := rfl
@[simp] theorem finish_timeline (r : OpResult) (s : State) : (finish r s).timeline = s.timeline := rfl
@[simp] theorem finish_inq (r : OpResult) (s : State) : (finish r s).inq = s.inq := rfl
@[simp] theorem finish_outs (r : OpResult) (s : State) : (finish r s).outs = s.outs ++ [.opDone r] := rfl
@[simp] theorem finish_freeCtr (r : OpResult) (s : State) : (finish r s).freeCtr = s.freeCtr := rfl

/-! ### `acceptChunk` -/

@[simp] theorem acceptChunk_params (c : Bytes) (s : State) : (acceptChunk c s).params = s.params := rfl
@[simp] theorem acceptChunk_image (c : Bytes) (s : State) : (acceptChunk c s).image = s.image := rfl
@[simp] theorem acceptChunk_profile (c : Bytes) (s : State) : (acceptChunk c s).profile = s.profile := rfl
@[simp] theorem acceptChunk_attempts (c : Bytes) (s : State) :
    (acceptChunk c s).attempts = s.attempts :=
  rfl
@[simp] theorem acceptChunk_timeout (c : Bytes) (s : State) : (acceptChunk c s).timeout = s.timeout := rfl
@[simp] theorem acceptChunk_debug (c : Bytes) (s : State) : (acceptChunk c s).debug = s.debug := rfl
@[simp] theorem acceptChunk_mode (c : Bytes) (s : State) : (acceptChunk c s).mode = s.mode := rfl
@[simp] theorem acceptChunk_flashStep (c : Bytes) (s : State) :
    (acceptChunk c s).flashStep = s.flashStep :=
  rfl
@[simp] theorem acceptChunk_pg (c : Bytes) (s : State) : (acceptChunk c s).pg = s.pg := rfl
@[simp] theorem acceptChunk_syncTry (c : Bytes) (s : State) : (acceptChunk c s).syncTry = s.syncTry := rfl
@[simp] theorem acceptChunk_syncLast (c : Bytes) (s : State) :
    (acceptChunk c s).syncLast = s.syncLast :=
  rfl
@[simp] theorem acceptChunk_pageAddr (c : Bytes) (s : State) :
    (acceptChunk c s).pageAddr = s.pageAddr :=
  rfl
@[simp] theorem acceptChunk_wordAddr (c : Bytes) (s : State) :
    (acceptChunk c s).wordAddr = s.wordAddr :=
  rfl
@[simp] theorem acceptChunk_slice (c : Bytes) (s : State) : (acceptChunk c s).slice = s.slice := rfl
@[simp] theorem acceptChunk_settle (c : Bytes) (s : State) : (acceptChunk c s).settle = s.settle := rfl
@[simp] theorem acceptChunk_tx (c : Bytes) (s : State) : (acceptChunk c s).tx = s.tx := rfl
@[simp] theorem acceptChunk_req (c : Bytes) (s : State) : (acceptChunk c s).req = s.req := rfl
@[simp] theorem acceptChunk_frame (c : Bytes) (s : State) : (acceptChunk c s).frame = s.frame := rfl
@[simp] theorem acceptChunk_rxActive (c : Bytes) (s : State) :
    (acceptChunk c s).rxActive = s.rxActive :=
  rfl
@[simp] theorem acceptChunk_rxPend (c : Bytes) (s : State) : (acceptChunk c s).rxPend = false := rfl
@[simp] theorem acceptChunk_rxSynced (c : Bytes) (s : State) :
    (acceptChunk c s).rxSynced = (scan s.params.k.sof s.rxSynced c).1 :=
  rfl
@[simp] theorem acceptChunk_rxBuf (c : Bytes) (s : State) :
    (acceptChunk c s).rxBuf = if (scan s.params.k.sof s.rxSynced c).1 then s.rxBuf ++ (scan s.params.k.sof s.rxSynced c).2 else s.rxBuf :=
  rfl
@[simp] theorem acceptChunk_rxExp (c : Bytes) (s : State) : (acceptChunk c s).rxExp = s.rxExp := rfl
@[simp] theorem acceptChunk_rxTo (c : Bytes) (s : State) : (acceptChunk c s).rxTo = s.rxTo := rfl
@[simp] theorem acceptChunk_rxEl (c : Bytes) (s : State) : (acceptChunk c s).rxEl = s.rxEl := rfl
@[simp] theorem acceptChunk_result (c : Bytes) (s : State) : (acceptChunk c s).result = s.result := rfl
@[simp] theorem acceptChunk_sigResp (c : Bytes) (s : State) : (acceptChunk c s).sigResp = s.sigResp := rfl
@[simp] theorem acceptChunk_timeline (c : Bytes) (s : State) :
    (acceptChunk c s).timeline = s.timeline :=
  rfl
@[simp] theorem acceptChunk_inq (c : Bytes) (s : State) : (acceptChunk c s).inq = s.inq := rfl
@[simp] theorem acceptChunk_outs (c : Bytes) (s : State) : (acceptChunk c s).outs = s.outs := rfl
@[simp] theorem acceptChunk_freeCtr (c : Bytes) (s : State) : (acceptChunk c s).freeCtr = s.freeCtr := rfl

/-! ### `forgetBuffer` -/

@[simp] theorem forgetBuffer_params (s : State) : (forgetBuffer s).params = s.params := rfl
@[simp] theorem forgetBuffer_image (s : State) : (forgetBuffer s).image = s.image := rfl
@[simp] theorem forgetBuffer_profile (s : State) : (forgetBuffer s).profile = s.profile := rfl
@[simp] theorem forgetBuffer_attempts (s : State) : (forgetBuffer s).attempts = s.attempts := rfl
@[simp] theorem forgetBuffer_timeout (s : State) : (forgetBuffer s).timeout = s.timeout := rfl
@[simp] theorem forgetBuffer_debug (s : State) : (forgetBuffer s).debug = s.debug := rfl
@[simp] theorem forgetBuffer_mode (s : State) : (forgetBuffer s).mode = s.mode := rfl
@[simp] theorem forgetBuffer_flashStep (s : State) : (forgetBuffer s).flashStep = s.flashStep := rfl
@[simp] theorem forgetBuffer_pg (s : State) : (forgetBuffer s).pg = s.pg := rfl
@[simp] theorem forgetBuffer_syncTry (s : State) : (forgetBuffer s).syncTry = s.syncTry := rfl
@[simp] theorem forgetBuffer_syncLast (s : State) : (forgetBuffer s).syncLast = s.syncLast := rfl
@[simp] theorem forgetBuffer_pageAddr (s : State) : (forgetBuffer s).pageAddr = s.pageAddr := rfl
@[simp] theorem forgetBuffer_wordAddr (s : State) : (forgetBuffer s).wordAddr = s.wordAddr := rfl
@[simp] theorem forgetBuffer_slice (s : State) : (forgetBuffer s).slice = s.slice := rfl
@[simp] theorem forgetBuffer_settle (s : State) : (forgetBuffer s).settle = s.settle := rfl
@[simp] theorem forgetBuffer_tx (s : State) : (forgetBuffer s).tx = s.tx := rfl
@[simp] theorem forgetBuffer_req (s : State) : (forgetBuffer s).req = s.req := rfl
@[simp] theorem forgetBuffer_frame (s : State) : (forgetBuffer s).frame = s.frame := rfl
@[simp] theorem forgetBuffer_rxActive (s : State) : (forgetBuffer s).rxActive = s.rxActive := rfl
@[simp] theorem forgetBuffer_rxPend (s : State) : (forgetBuffer s).rxPend = s.rxPend := rfl
@[simp] theorem forgetBuffer_rxSynced (s : State) : (forgetBuffer s).rxSynced = s.rxSynced := rfl
@[simp] theorem forgetBuffer_rxBuf (s : State) :
    (forgetBuffer s).rxBuf = unspecifiedBuffer s.params.k.sof (Config.freeBytes s.freeCtr) :=
  rfl
@[simp] theorem forgetBuffer_rxExp (s : State) : (forgetBuffer s).rxExp = s.rxExp := rfl
@[simp] theorem forgetBuffer_rxTo (s : State) : (forgetBuffer s).rxTo = s.rxTo := rfl
@[simp] theorem forgetBuffer_rxEl (s : State) : (forgetBuffer s).rxEl = s.rxEl := rfl
@[simp] theorem forgetBuffer_result (s : State) : (forgetBuffer s).result = s.result := rfl
@[simp] theorem forgetBuffer_sigResp (s : State) : (forgetBuffer s).sigResp = s.sigResp := rfl
@[simp] theorem forgetBuffer_timeline (s : State) : (forgetBuffer s).timeline = s.timeline := rfl
@[simp] theorem forgetBuffer_inq (s : State) : (forgetBuffer s).inq = s.inq := rfl
@[simp] theorem forgetBuffer_outs (s : State) : (forgetBuffer s).outs = s.outs := rfl
@[simp] theorem forgetBuffer_freeCtr (s : State) : (forgetBuffer s).freeCtr = s.freeCtr + 1 := rfl

/-! ### `advance` -/

@[simp] theorem advance_params (s : State) : (advance s).params = s.params := rfl
@[simp] theorem advance_image (s : State) : (advance s).image = s.image := rfl
@[simp] theorem advance_profile (s : State) : (advance s).profile = s.profile := rfl
@[simp] theorem advance_attempts (s : State) : (advance s).attempts = s.attempts := rfl
@[simp] theorem advance_timeout (s : State) : (advance s).timeout = s.timeout := rfl
@[simp] theorem advance_debug (s : State) : (advance s).debug = s.debug := rfl
@[simp] theorem advance_mode (s : State) : (advance s).mode = s.mode := rfl
@[simp] theorem advance_flashStep (s : State) : (advance s).flashStep = s.flashStep := rfl
@[simp] theorem advance_pg (s : State) : (advance s).pg = .settle := rfl
@[simp] theorem advance_syncTry (s : State) : (advance s).syncTry = s.syncTry := rfl
@[simp] theorem advance_syncLast (s : State) : (advance s).syncLast = s.syncLast := rfl
@[simp] theorem advance_pageAddr (s : State) : (advance s).pageAddr = s.pageAddr + s.slice.length := rfl
@[simp] theorem advance_wordAddr (s : State) : (advance s).wordAddr = s.wordAddr := rfl
@[simp] theorem advance_slice (s : State) : (advance s).slice = s.slice := rfl
@[simp] theorem advance_settle (s : State) : (advance s).settle = 0 := rfl
@[simp] theorem advance_tx (s : State) : (advance s).tx = s.tx := rfl
@[simp] theorem advance_req (s : State) : (advance s).req = s.req := rfl
@[simp] theorem advance_frame (s : State) : (advance s).frame = s.frame := rfl
@[simp] theorem advance_rxActive (s : State) : (advance s).rxActive = s.rxActive := rfl
@[simp] theorem advance_rxPend (s : State) : (advance s).rxPend = s.rxPend := rfl
@[simp] theorem advance_rxSynced (s : State) : (advance s).rxSynced = s.rxSynced := rfl
@[simp] theorem advance_rxBuf (s : State) : (advance s).rxBuf = s.rxBuf := rfl
@[simp] theorem advance_rxExp (s : State) : (advance s).rxExp = s.rxExp := rfl
@[simp] theorem advance_rxTo (s : State) : (advance s).rxTo = s.rxTo := rfl
@[simp] theorem advance_rxEl (s : State) : (advance s).rxEl = s.rxEl := rfl
@[simp] theorem advance_result (s : State) : (advance s).result = s.result := rfl
@[simp] theorem advance_sigResp (s : State) : (advance s).sigResp = s.sigResp := rfl
@[simp] theorem advance_timeline (s : State) : (advance s).timeline = s.timeline := rfl
@[simp] theorem advance_inq (s : State) : (advance s).inq = s.inq := rfl
@[simp] theorem advance_outs (s : State) : (advance s).outs = s.outs := rfl
@[simp] theorem advance_freeCtr (s : State) : (advance s).freeCtr = s.freeCtr := rfl

/-! ### `recordOutcome` -/

@[simp] theorem recordOutcome_params (o : StepOutcome) (s : State) :
    (recordOutcome o s).params = s.params :=
  rfl
@[simp] theorem recordOutcome_image (o : StepOutcome) (s : State) :
    (recordOutcome o s).image = s.image :=
  rfl
@[simp] theorem recordOutcome_profile (o : StepOutcome) (s : State) :
    (recordOutcome o s).profile = s.profile :=
  rfl
@[simp] theorem recordOutcome_attempts (o : StepOutcome) (s : State) :
    (recordOutcome o s).attempts = s.attempts :=
  rfl
@[simp] theorem recordOutcome_timeout (o : StepOutcome) (s : State) :
    (recordOutcome o s).timeout = s.timeout :=
  rfl
@[simp] theorem recordOutcome_debug (o : StepOutcome) (s : State) :
    (recordOutcome o s).debug = s.debug :=
  rfl
@[simp] theorem recordOutcome_mode (o : StepOutcome) (s : State) : (recordOutcome o s).mode = s.mode := rfl
@[simp] theorem recordOutcome_flashStep (o : StepOutcome) (s : State) :
    (recordOutcome o s).flashStep = s.flashStep :=
  rfl
@[simp] theorem recordOutcome_pg (o : StepOutcome) (s : State) : (recordOutcome o s).pg = s.pg := rfl
@[simp] theorem recordOutcome_syncTry (o : StepOutcome) (s : State) :
    (recordOutcome o s).syncTry = s.syncTry :=
  rfl
@[simp] theorem recordOutcome_syncLast (o : StepOutcome) (s : State) :
    (recordOutcome o s).syncLast = s.syncLast :=
  rfl
@[simp] theorem recordOutcome_pageAddr (o : StepOutcome) (s : State) :
    (recordOutcome o s).pageAddr = s.pageAddr :=
  rfl
@[simp] theorem recordOutcome_wordAddr (o : StepOutcome) (s : State) :
    (recordOutcome o s).wordAddr = s.wordAddr :=
  rfl
@[simp] theorem recordOutcome_slice (o : StepOutcome) (s : State) :
    (recordOutcome o s).slice = s.slice :=
  rfl
@[simp] theorem recordOutcome_settle (o : StepOutcome) (s : State) :
    (recordOutcome o s).settle = s.settle :=
  rfl
@[simp] theorem recordOutcome_tx (o : StepOutcome) (s : State) : (recordOutcome o s).tx = s.tx := rfl
@[simp] theorem recordOutcome_req (o : StepOutcome) (s : State) : (recordOutcome o s).req = s.req := rfl
@[simp] theorem recordOutcome_frame (o : StepOutcome) (s : State) :
    (recordOutcome o s).frame = s.frame :=
  rfl
@[simp] theorem recordOutcome_rxActive (o : StepOutcome) (s : State) :
    (recordOutcome o s).rxActive = s.rxActive :=
  rfl
@[simp] theorem recordOutcome_rxPend (o : StepOutcome) (s : State) :
    (recordOutcome o s).rxPend = s.rxPend :=
  rfl
@[simp] theorem recordOutcome_rxSynced (o : StepOutcome) (s : State) :
    (recordOutcome o s).rxSynced = s.rxSynced :=
  rfl
@[simp] theorem recordOutcome_rxBuf (o : StepOutcome) (s : State) :
    (recordOutcome o s).rxBuf = s.rxBuf :=
  rfl
@[simp] theorem recordOutcome_rxExp (o : StepOutcome) (s : State) :
    (recordOutcome o s).rxExp = s.rxExp :=
  rfl
@[simp] theorem recordOutcome_rxTo (o : StepOutcome) (s : State) : (recordOutcome o s).rxTo = s.rxTo := rfl
@[simp] theorem recordOutcome_rxEl (o : StepOutcome) (s : State) : (recordOutcome o s).rxEl = s.rxEl := rfl
@[simp] theorem recordOutcome_result (o : StepOutcome) (s : State) :
    (recordOutcome o s).result = s.result :=
  rfl
@[simp] theorem recordOutcome_sigResp (o : StepOutcome) (s : State) :
    (recordOutcome o s).sigResp = s.sigResp :=
  rfl
@[simp] theorem recordOutcome_timeline (o : StepOutcome) (s : State) :
    (recordOutcome o s).timeline = s.timeline ++ [(s.flashStep, o)] :=
  rfl
@[simp] theorem recordOutcome_inq (o : StepOutcome) (s : State) : (recordOutcome o s).inq = s.inq := rfl
@[simp] theorem recordOutcome_outs (o : StepOutcome) (s : State) : (recordOutcome o s).outs = s.outs := rfl
@[simp] theorem recordOutcome_freeCtr (o : StepOutcome) (s : State) :
    (recordOutcome o s).freeCtr = s.freeCtr :=
  rfl

/-! ### `leavePage` -/

@[simp] theorem leavePage_params (s : State) : (leavePage s).params = s.params := rfl
@[simp] theorem leavePage_image (s : State) : (leavePage s).image = s.image := rfl
@[simp] theorem leavePage_profile (s : State) : (leavePage s).profile = s.profile := rfl
@[simp] theorem leavePage_attempts (s : State) : (leavePage s).attempts = s.attempts := rfl
@[simp] theorem leavePage_timeout (s : State) : (leavePage s).timeout = s.timeout := rfl
@[simp] theorem leavePage_debug (s : State) : (leavePage s).debug = s.debug := rfl
@[simp] theorem leavePage_mode (s : State) : (leavePage s).mode = s.mode := rfl
@[simp] theorem leavePage_flashStep (s : State) : (leavePage s).flashStep = s.flashStep := rfl
@[simp] theorem leavePage_pg (s : State) : (leavePage s).pg = .none := rfl
@[simp] theorem leavePage_syncTry (s : State) : (leavePage s).syncTry = s.syncTry := rfl
@[simp] theorem leavePage_syncLast (s : State) : (leavePage s).syncLast = s.syncLast := rfl
@[simp] theorem leavePage_pageAddr (s : State) : (leavePage s).pageAddr = s.pageAddr := rfl
@[simp] theorem leavePage_wordAddr (s : State) : (leavePage s).wordAddr = s.wordAddr := rfl
@[simp] theorem leavePage_slice (s : State) : (leavePage s).slice = s.slice := rfl
@[simp] theorem leavePage_settle (s : State) : (leavePage s).settle = s.settle := rfl
@[simp] theorem leavePage_tx (s : State) : (leavePage s).tx = s.tx := rfl
@[simp] theorem leavePage_req (s : State) : (leavePage s).req = s.req := rfl
@[simp] theorem leavePage_frame (s : State) : (leavePage s).frame = s.frame := rfl
@[simp] theorem leavePage_rxActive (s : State) : (leavePage s).rxActive = s.rxActive := rfl
@[simp] theorem leavePage_rxPend (s : State) : (leavePage s).rxPend = s.rxPend := rfl
@[simp] theorem leavePage_rxSynced (s : State) : (leavePage s).rxSynced = s.rxSynced := rfl
@[simp] theorem leavePage_rxBuf (s : State) : (leavePage s).rxBuf = s.rxBuf := rfl
@[simp] theorem leavePage_rxExp (s : State) : (leavePage s).rxExp = s.rxExp := rfl
@[simp] theorem leavePage_rxTo (s : State) : (leavePage s).rxTo = s.rxTo := rfl
@[simp] theorem leavePage_rxEl (s : State) : (leavePage s).rxEl = s.rxEl := rfl
@[simp] theorem leavePage_result (s : State) : (leavePage s).result = s.result := rfl
@[simp] theorem leavePage_sigResp (s : State) : (leavePage s).sigResp = s.sigResp := rfl
@[simp] theorem leavePage_timeline (s : State) : (leavePage s).timeline = s.timeline := rfl
@[simp] theorem leavePage_inq (s : State) : (leavePage s).inq = s.inq := rfl
@[simp] theorem leavePage_outs (s : State) : (leavePage s).outs = s.outs := rfl
@[simp] theorem leavePage_freeCtr (s : State) : (leavePage s).freeCtr = s.freeCtr := rfl

/-! ### `setStep` -/

@[simp] theorem setStep_params (st : FlashStep) (s : State) : (setStep st s).params = s.params := rfl
@[simp] theorem setStep_image (st : FlashStep) (s : State) : (setStep st s).image = s.image := rfl
@[simp] theorem setStep_profile (st : FlashStep) (s : State) : (setStep st s).profile = s.profile := rfl
@[simp] theorem setStep_attempts (st : FlashStep) (s : State) : (setStep st s).attempts = s.attempts := rfl
@[simp] theorem setStep_timeout (st : FlashStep) (s : State) : (setStep st s).timeout = s.timeout := rfl
@[simp] theorem setStep_debug (st : FlashStep) (s : State) : (setStep st s).debug = s.debug := rfl
@[simp] theorem setStep_mode (st : FlashStep) (s : State) : (setStep st s).mode = s.mode := rfl
@[simp] theorem setStep_flashStep (st : FlashStep) (s : State) : (setStep st s).flashStep = st := rfl
@[simp] theorem setStep_pg (st : FlashStep) (s : State) : (setStep st s).pg = s.pg := rfl
@[simp] theorem setStep_syncTry (st : FlashStep) (s : State) : (setStep st s).syncTry = s.syncTry := rfl
@[simp] theorem setStep_syncLast (st : FlashStep) (s : State) : (setStep st s).syncLast = s.syncLast := rfl
@[simp] theorem setStep_pageAddr (st : FlashStep) (s : State) : (setStep st s).pageAddr = s.pageAddr := rfl
@[simp] theorem setStep_wordAddr (st : FlashStep) (s : State) : (setStep st s).wordAddr = s.wordAddr := rfl
@[simp] theorem setStep_slice (st : FlashStep) (s : State) : (setStep st s).slice = s.slice := rfl
@[simp] theorem setStep_settle (st : FlashStep) (s : State) : (setStep st s).settle = s.settle := rfl
@[simp] theorem setStep_tx (st : FlashStep) (s : State) : (setStep st s).tx = s.tx := rfl
@[simp] theorem setStep_req (st : FlashStep) (s : State) : (setStep st s).req = s.req := rfl
@[simp] theorem setStep_frame (st : FlashStep) (s : State) : (setStep st s).frame = s.frame := rfl
@[simp] theorem setStep_rxActive (st : FlashStep) (s : State) : (setStep st s).rxActive = s.rxActive := rfl
@[simp] theorem setStep_rxPend (st : FlashStep) (s : State) : (setStep st s).rxPend = s.rxPend := rfl
@[simp] theorem setStep_rxSynced (st : FlashStep) (s : State) : (setStep st s).rxSynced = s.rxSynced := rfl
@[simp] theorem setStep_rxBuf (st : FlashStep) (s : State) : (setStep st s).rxBuf = s.rxBuf := rfl
@[simp] theorem setStep_rxExp (st : FlashStep) (s : State) : (setStep st s).rxExp = s.rxExp := rfl
@[simp] theorem setStep_rxTo (st : FlashStep) (s : State) : (setStep st s).rxTo = s.rxTo := rfl
@[simp] theorem setStep_rxEl (st : FlashStep) (s : State) : (setStep st s).rxEl = s.rxEl := rfl
@[simp] theorem setStep_result (st : FlashStep) (s : State) : (setStep st s).result = s.result := rfl
@[simp] theorem setStep_sigResp (st : FlashStep) (s : State) : (setStep st s).sigResp = s.sigResp := rfl
@[simp] theorem setStep_timeline (st : FlashStep) (s : State) : (setStep st s).timeline = s.timeline := rfl
@[simp] theorem setStep_inq (st : FlashStep) (s : State) : (setStep st s).inq = s.inq := rfl
@[simp] theorem setStep_outs (st : FlashStep) (s : State) : (setStep st s).outs = s.outs := rfl
@[simp] theorem setStep_freeCtr (st : FlashStep) (s : State) : (setStep st s).freeCtr = s.freeCtr := rfl

/-! ### `commandOver` -/

@[simp] theorem commandOver_params (s : State) : (commandOver s).params = s.params := rfl
@[simp] theorem commandOver_image (s : State) : (commandOver s).image = s.image := rfl
@[simp] theorem commandOver_profile (s : State) : (commandOver s).profile = s.profile := rfl
@[simp] theorem commandOver_attempts (s : State) : (commandOver s).attempts = s.attempts := rfl
@[simp] theorem commandOver_timeout (s : State) : (commandOver s).timeout = s.timeout := rfl
@[simp] theorem commandOver_debug (s : State) : (commandOver s).debug = s.debug := rfl
@[simp] theorem commandOver_mode (s : State) : (commandOver s).mode = s.mode := rfl
@[simp] theorem commandOver_flashStep (s : State) : (commandOver s).flashStep = s.flashStep := rfl
@[simp] theorem commandOver_pg (s : State) : (commandOver s).pg = s.pg := rfl
@[simp] theorem commandOver_syncTry (s : State) : (commandOver s).syncTry = s.syncTry := rfl
@[simp] theorem commandOver_syncLast (s : State) : (commandOver s).syncLast = s.syncLast := rfl
@[simp] theorem commandOver_pageAddr (s : State) : (commandOver s).pageAddr = s.pageAddr := rfl
@[simp] theorem commandOver_wordAddr (s : State) : (commandOver s).wordAddr = s.wordAddr := rfl
@[simp] theorem commandOver_slice (s : State) : (commandOver s).slice = s.slice := rfl
@[simp] theorem commandOver_settle (s : State) : (commandOver s).settle = s.settle := rfl
@[simp] theorem commandOver_tx (s : State) : (commandOver s).tx = .idle := rfl
@[simp] theorem commandOver_req (s : State) : (commandOver s).req = s.req := rfl
@[simp] theorem commandOver_frame (s : State) : (commandOver s).frame = s.frame := rfl
@[simp] theorem commandOver_rxActive (s : State) : (commandOver s).rxActive = s.rxActive := rfl
@[simp] theorem commandOver_rxPend (s : State) : (commandOver s).rxPend = s.rxPend := rfl
@[simp] theorem commandOver_rxSynced (s : State) : (commandOver s).rxSynced = s.rxSynced := rfl
@[simp] theorem commandOver_rxBuf (s : State) : (commandOver s).rxBuf = s.rxBuf := rfl
@[simp] theorem commandOver_rxExp (s : State) : (commandOver s).rxExp = s.rxExp := rfl
@[simp] theorem commandOver_rxTo (s : State) : (commandOver s).rxTo = s.rxTo := rfl
@[simp] theorem commandOver_rxEl (s : State) : (commandOver s).rxEl = s.rxEl := rfl
@[simp] theorem commandOver_result (s : State) : (commandOver s).result = s.result := rfl
@[simp] theorem commandOver_sigResp (s : State) : (commandOver s).sigResp = s.sigResp := rfl
@[simp] theorem commandOver_timeline (s : State) : (commandOver s).timeline = s.timeline := rfl
@[simp] theorem commandOver_inq (s : State) : (commandOver s).inq = s.inq := rfl
@[simp] theorem commandOver_outs (s : State) : (commandOver s).outs = s.outs := rfl
@[simp] theorem commandOver_freeCtr (s : State) : (commandOver s).freeCtr = s.freeCtr := rfl

/-! ### `readOver` -/

@[simp] theorem readOver_params (s : State) : (readOver s).params = s.params := rfl
@[simp] theorem readOver_image (s : State) : (readOver s).image = s.image := rfl
@[simp] theorem readOver_profile (s : State) : (readOver s).profile = s.profile := rfl
@[simp] theorem readOver_attempts (s : State) : (readOver s).attempts = s.attempts := rfl
@[simp] theorem readOver_timeout (s : State) : (readOver s).timeout = s.timeout := rfl
@[simp] theorem readOver_debug (s : State) : (readOver s).debug = s.debug := rfl
@[simp] theorem readOver_mode (s : State) : (readOver s).mode = s.mode := rfl
@[simp] theorem readOver_flashStep (s : State) : (readOver s).flashStep = s.flashStep := rfl
@[simp] theorem readOver_pg (s : State) : (readOver s).pg = s.pg := rfl
@[simp] theorem readOver_syncTry (s : State) : (readOver s).syncTry = s.syncTry := rfl
@[simp] theorem readOver_syncLast (s : State) : (readOver s).syncLast = s.syncLast := rfl
@[simp] theorem readOver_pageAddr (s : State) : (readOver s).pageAddr = s.pageAddr := rfl
@[simp] theorem readOver_wordAddr (s : State) : (readOver s).wordAddr = s.wordAddr := rfl
@[simp] theorem readOver_slice (s : State) : (readOver s).slice = s.slice := rfl
@[simp] theorem readOver_settle (s : State) : (readOver s).settle = s.settle := rfl
@[simp] theorem readOver_tx (s : State) : (readOver s).tx = s.tx := rfl
@[simp] theorem readOver_req (s : State) : (readOver s).req = s.req := rfl
@[simp] theorem readOver_frame (s : State) : (readOver s).frame = s.frame := rfl
@[simp] theorem readOver_rxActive (s : State) : (readOver s).rxActive = s.rxActive := rfl
@[simp] theorem readOver_rxPend (s : State) : (readOver s).rxPend = false := rfl
@[simp] theorem readOver_rxSynced (s : State) : (readOver s).rxSynced = s.rxSynced := rfl
@[simp] theorem readOver_rxBuf (s : State) : (readOver s).rxBuf = s.rxBuf := rfl
@[simp] theorem readOver_rxExp (s : State) : (readOver s).rxExp = s.rxExp := rfl
@[simp] theorem readOver_rxTo (s : State) : (readOver s).rxTo = s.rxTo := rfl
@[simp] theorem readOver_rxEl (s : State) : (readOver s).rxEl = s.rxEl := rfl
@[simp] theorem readOver_result (s : State) : (readOver s).result = s.result := rfl
@[simp] theorem readOver_sigResp (s : State) : (readOver s).sigResp = s.sigResp := rfl
@[simp] theorem readOver_timeline (s : State) : (readOver s).timeline = s.timeline := rfl
@[simp] theorem readOver_inq (s : State) : (readOver s).inq = s.inq := rfl
@[simp] theorem readOver_outs (s : State) : (readOver s).outs = s.outs := rfl
@[simp] theorem readOver_freeCtr (s : State) : (readOver s).freeCtr = s.freeCtr := rfl

/-! ### `receiverOff` -/

@[simp] theorem receiverOff_params (s : State) : (receiverOff s).params = s.params := rfl
@[simp] theorem receiverOff_image (s : State) : (receiverOff s).image = s.image := rfl
@[simp] theorem receiverOff_profile (s : State) : (receiverOff s).profile = s.profile := rfl
@[simp] theorem receiverOff_attempts (s : State) : (receiverOff s).attempts = s.attempts := rfl
@[simp] theorem receiverOff_timeout (s : State) : (receiverOff s).timeout = s.timeout := rfl
@[simp] theorem receiverOff_debug (s : State) : (receiverOff s).debug = s.debug := rfl
@[simp] theorem receiverOff_mode (s : State) : (receiverOff s).mode = s.mode := rfl
@[simp] theorem receiverOff_flashStep (s : State) : (receiverOff s).flashStep = s.flashStep := rfl
@[simp] theorem receiverOff_pg (s : State) : (receiverOff s).pg = s.pg := rfl
@[simp] theorem receiverOff_syncTry (s : State) : (receiverOff s).syncTry = s.syncTry := rfl
@[simp] theorem receiverOff_syncLast (s : State) : (receiverOff s).syncLast = s.syncLast := rfl
@[simp] theorem receiverOff_pageAddr (s : State) : (receiverOff s).pageAddr = s.pageAddr := rfl
@[simp] theorem receiverOff_wordAddr (s : State) : (receiverOff s).wordAddr = s.wordAddr := rfl
@[simp] theorem receiverOff_slice (s : State) : (receiverOff s).slice = s.slice := rfl
@[simp] theorem receiverOff_settle (s : State) : (receiverOff s).settle = s.settle := rfl
@[simp] theorem receiverOff_tx (s : State) : (receiverOff s).tx = s.tx := rfl
@[simp] theorem receiverOff_req (s : State) : (receiverOff s).req = s.req := rfl
@[simp] theorem receiverOff_frame (s : State) : (receiverOff s).frame = s.frame := rfl
@[simp] theorem receiverOff_rxActive (s : State) : (receiverOff s).rxActive = false := rfl
@[simp] theorem receiverOff_rxPend (s : State) : (receiverOff s).rxPend = false := rfl
@[simp] theorem receiverOff_rxSynced (s : State) : (receiverOff s).rxSynced = s.rxSynced := rfl
@[simp] theorem receiverOff_rxBuf (s : State) : (receiverOff s).rxBuf = s.rxBuf := rfl
@[simp] theorem receiverOff_rxExp (s : State) : (receiverOff s).rxExp = s.rxExp := rfl
@[simp] theorem receiverOff_rxTo (s : State) : (receiverOff s).rxTo = s.rxTo := rfl
@[simp] theorem receiverOff_rxEl (s : State) : (receiverOff s).rxEl = s.rxEl := rfl
@[simp] theorem receiverOff_result (s : State) : (receiverOff s).result = s.result := rfl
@[simp] theorem receiverOff_sigResp (s : State) : (receiverOff s).sigResp = s.sigResp := rfl
@[simp] theorem receiverOff_timeline (s : State) : (receiverOff s).timeline = s.timeline := rfl
@[simp] theorem receiverOff_inq (s : State) : (receiverOff s).inq = s.inq := rfl
@[simp] theorem receiverOff_outs (s : State) : (receiverOff s).outs = s.outs := rfl
@[simp] theorem receiverOff_freeCtr (s : State) : (receiverOff s).freeCtr = s.freeCtr := rfl

/-! ### `countElapsed` -/

@[simp] theorem countElapsed_params (s : State) : (countElapsed s).params = s.params := rfl
@[simp] theorem countElapsed_image (s : State) : (countElapsed s).image = s.image := rfl
@[simp] theorem countElapsed_profile (s : State) : (countElapsed s).profile = s.profile := rfl
@[simp] theorem countElapsed_attempts (s : State) : (countElapsed s).attempts = s.attempts := rfl
@[simp] theorem countElapsed_timeout (s : State) : (countElapsed s).timeout = s.timeout := rfl
@[simp] theorem countElapsed_debug (s : State) : (countElapsed s).debug = s.debug := rfl
@[simp] theorem countElapsed_mode (s : State) : (countElapsed s).mode = s.mode := rfl
@[simp] theorem countElapsed_flashStep (s : State) : (countElapsed s).flashStep = s.flashStep := rfl
@[simp] theorem countElapsed_pg (s : State) : (countElapsed s).pg = s.pg := rfl
@[simp] theorem countElapsed_syncTry (s : State) : (countElapsed s).syncTry = s.syncTry := rfl
@[simp] theorem countElapsed_syncLast (s : State) : (countElapsed s).syncLast = s.syncLast := rfl
@[simp] theorem countElapsed_pageAddr (s : State) : (countElapsed s).pageAddr = s.pageAddr := rfl
@[simp] theorem countElapsed_wordAddr (s : State) : (countElapsed s).wordAddr = s.wordAddr := rfl
@[simp] theorem countElapsed_slice (s : State) : (countElapsed s).slice = s.slice := rfl
@[simp] theorem countElapsed_settle (s : State) : (countElapsed s).settle = s.settle := rfl
@[simp] theorem countElapsed_tx (s : State) : (countElapsed s).tx = s.tx := rfl
@[simp] theorem countElapsed_req (s : State) : (countElapsed s).req = s.req := rfl
@[simp] theorem countElapsed_frame (s : State) : (countElapsed s).frame = s.frame := rfl
@[simp] theorem countElapsed_rxActive (s : State) : (countElapsed s).rxActive = s.rxActive := rfl
@[simp] theorem countElapsed_rxPend (s : State) : (countElapsed s).rxPend = s.rxPend := rfl
@[simp] theorem countElapsed_rxSynced (s : State) : (countElapsed s).rxSynced = s.rxSynced := rfl
@[simp] theorem countElapsed_rxBuf (s : State) : (countElapsed s).rxBuf = s.rxBuf := rfl
@[simp] theorem countElapsed_rxExp (s : State) : (countElapsed s).rxExp = s.rxExp := rfl
@[simp] theorem countElapsed_rxTo (s : State) : (countElapsed s).rxTo = s.rxTo := rfl
@[simp] theorem countElapsed_rxEl (s : State) : (countElapsed s).rxEl = s.rxEl + 1 := rfl
@[simp] theorem countElapsed_result (s : State) : (countElapsed s).result = s.result := rfl
@[simp] theorem countElapsed_sigResp (s : State) : (countElapsed s).sigResp = s.sigResp := rfl
@[simp] theorem countElapsed_timeline (s : State) : (countElapsed s).timeline = s.timeline := rfl
@[simp] theorem countElapsed_inq (s : State) : (countElapsed s).inq = s.inq := rfl
@[simp] theorem countElapsed_outs (s : State) : (countElapsed s).outs = s.outs := rfl
@[simp] theorem countElapsed_freeCtr (s : State) : (countElapsed s).freeCtr = s.freeCtr := rfl

/-! ### `countSettle` -/

@[simp] theorem countSettle_params (s : State) : (countSettle s).params = s.params := rfl
@[simp] theorem countSettle_image (s : State) : (countSettle s).image = s.image := rfl
@[simp] theorem countSettle_profile (s : State) : (countSettle s).profile = s.profile := rfl
@[simp] theorem countSettle_attempts (s : State) : (countSettle s).attempts = s.attempts := rfl
@[simp] theorem countSettle_timeout (s : State) : (countSettle s).timeout = s.timeout := rfl
@[simp] theorem countSettle_debug (s : State) : (countSettle s).debug = s.debug := rfl
@[simp] theorem countSettle_mode (s : State) : (countSettle s).mode = s.mode := rfl
@[simp] theorem countSettle_flashStep (s : State) : (countSettle s).flashStep = s.flashStep := rfl
@[simp] theorem countSettle_pg (s : State) : (countSettle s).pg = s.pg := rfl
@[simp] theorem countSettle_syncTry (s : State) : (countSettle s).syncTry = s.syncTry := rfl
@[simp] theorem countSettle_syncLast (s : State) : (countSettle s).syncLast = s.syncLast := rfl
@[simp] theorem countSettle_pageAddr (s : State) : (countSettle s).pageAddr = s.pageAddr := rfl
@[simp] theorem countSettle_wordAddr (s : State) : (countSettle s).wordAddr = s.wordAddr := rfl
@[simp] theorem countSettle_slice (s : State) : (countSettle s).slice = s.slice := rfl
@[simp] theorem countSettle_settle (s : State) : (countSettle s).settle = s.settle + 1 := rfl
@[simp] theorem countSettle_tx (s : State) : (countSettle s).tx = s.tx := rfl
@[simp] theorem countSettle_req (s : State) : (countSettle s).req = s.req := rfl
@[simp] theorem countSettle_frame (s : State) : (countSettle s).frame = s.frame := rfl
@[simp] theorem countSettle_rxActive (s : State) : (countSettle s).rxActive = s.rxActive := rfl
@[simp] theorem countSettle_rxPend (s : State) : (countSettle s).rxPend = s.rxPend := rfl
@[simp] theorem countSettle_rxSynced (s : State) : (countSettle s).rxSynced = s.rxSynced := rfl
@[simp] theorem countSettle_rxBuf (s : State) : (countSettle s).rxBuf = s.rxBuf := rfl
@[simp] theorem countSettle_rxExp (s : State) : (countSettle s).rxExp = s.rxExp := rfl
@[simp] theorem countSettle_rxTo (s : State) : (countSettle s).rxTo = s.rxTo := rfl
@[simp] theorem countSettle_rxEl (s : State) : (countSettle s).rxEl = s.rxEl := rfl
@[simp] theorem countSettle_result (s : State) : (countSettle s).result = s.result := rfl
@[simp] theorem countSettle_sigResp (s : State) : (countSettle s).sigResp = s.sigResp := rfl
@[simp] theorem countSettle_timeline (s : State) : (countSettle s).timeline = s.timeline := rfl
@[simp] theorem countSettle_inq (s : State) : (countSettle s).inq = s.inq := rfl
@[simp] theorem countSettle_outs (s : State) : (countSettle s).outs = s.outs := rfl
@[simp] theorem countSettle_freeCtr (s : State) : (countSettle s).freeCtr = s.freeCtr := rfl

/-! ### `firstAttempt` -/

@[simp] theorem firstAttempt_params (s : State) : (firstAttempt s).params = s.params := rfl
@[simp] theorem firstAttempt_image (s : State) : (firstAttempt s).image = s.image := rfl
@[simp] theorem firstAttempt_profile (s : State) : (firstAttempt s).profile = s.profile := rfl
@[simp] theorem firstAttempt_attempts (s : State) : (firstAttempt s).attempts = s.attempts := rfl
@[simp] theorem firstAttempt_timeout (s : State) : (firstAttempt s).timeout = s.timeout := rfl
@[simp] theorem firstAttempt_debug (s : State) : (firstAttempt s).debug = s.debug := rfl
@[simp] theorem firstAttempt_mode (s : State) : (firstAttempt s).mode = s.mode := rfl
@[simp] theorem firstAttempt_flashStep (s : State) : (firstAttempt s).flashStep = s.flashStep := rfl
@[simp] theorem firstAttempt_pg (s : State) : (firstAttempt s).pg = s.pg := rfl
@[simp] theorem firstAttempt_syncTry (s : State) : (firstAttempt s).syncTry = 1 := rfl
@[simp] theorem firstAttempt_syncLast (s : State) : (firstAttempt s).syncLast = none := rfl
@[simp] theorem firstAttempt_pageAddr (s : State) : (firstAttempt s).pageAddr = s.pageAddr := rfl
@[simp] theorem firstAttempt_wordAddr (s : State) : (firstAttempt s).wordAddr = s.wordAddr := rfl
@[simp] theorem firstAttempt_slice (s : State) : (firstAttempt s).slice = s.slice := rfl
@[simp] theorem firstAttempt_settle (s : State) : (firstAttempt s).settle = s.settle := rfl
@[simp] theorem firstAttempt_tx (s : State) : (firstAttempt s).tx = s.tx := rfl
@[simp] theorem firstAttempt_req (s : State) : (firstAttempt s).req = s.req := rfl
@[simp] theorem firstAttempt_frame (s : State) : (firstAttempt s).frame = s.frame := rfl
@[simp] theorem firstAttempt_rxActive (s : State) : (firstAttempt s).rxActive = s.rxActive := rfl
@[simp] theorem firstAttempt_rxPend (s : State) : (firstAttempt s).rxPend = s.rxPend := rfl
@[simp] theorem firstAttempt_rxSynced (s : State) : (firstAttempt s).rxSynced = s.rxSynced := rfl
@[simp] theorem firstAttempt_rxBuf (s : State) : (firstAttempt s).rxBuf = s.rxBuf := rfl
@[simp] theorem firstAttempt_rxExp (s : State) : (firstAttempt s).rxExp = s.rxExp := rfl
@[simp] theorem firstAttempt_rxTo (s : State) : (firstAttempt s).rxTo = s.rxTo := rfl
@[simp] theorem firstAttempt_rxEl (s : State) : (firstAttempt s).rxEl = s.rxEl := rfl
@[simp] theorem firstAttempt_result (s : State) : (firstAttempt s).result = s.result := rfl
@[simp] theorem firstAttempt_sigResp (s : State) : (firstAttempt s).sigResp = s.sigResp := rfl
@[simp] theorem firstAttempt_timeline (s : State) : (firstAttempt s).timeline = s.timeline := rfl
@[simp] theorem firstAttempt_inq (s : State) : (firstAttempt s).inq = s.inq := rfl
@[simp] theorem firstAttempt_outs (s : State) : (firstAttempt s).outs = s.outs := rfl
@[simp] theorem firstAttempt_freeCtr (s : State) : (firstAttempt s).freeCtr = s.freeCtr := rfl

/-! ### `attemptFailed` -/

@[simp] theorem attemptFailed_params (e : Err) (s : State) : (attemptFailed e s).params = s.params := rfl
@[simp] theorem attemptFailed_image (e : Err) (s : State) : (attemptFailed e s).image = s.image := rfl
@[simp] theorem attemptFailed_profile (e : Err) (s : State) : (attemptFailed e s).profile = s.profile := rfl
@[simp] theorem attemptFailed_attempts (e : Err) (s : State) :
    (attemptFailed e s).attempts = s.attempts :=
  rfl
@[simp] theorem attemptFailed_timeout (e : Err) (s : State) : (attemptFailed e s).timeout = s.timeout := rfl
@[simp] theorem attemptFailed_debug (e : Err) (s : State) : (attemptFailed e s).debug = s.debug := rfl
@[simp] theorem attemptFailed_mode (e : Err) (s : State) : (attemptFailed e s).mode = s.mode := rfl
@[simp] theorem attemptFailed_flashStep (e : Err) (s : State) :
    (attemptFailed e s).flashStep = s.flashStep :=
  rfl
@[simp] theorem attemptFailed_pg (e : Err) (s : State) : (attemptFailed e s).pg = s.pg := rfl
@[simp] theorem attemptFailed_syncTry (e : Err) (s : State) : (attemptFailed e s).syncTry = s.syncTry := rfl
@[simp] theorem attemptFailed_syncLast (e : Err) (s : State) : (attemptFailed e s).syncLast = some e := rfl
@[simp] theorem attemptFailed_pageAddr (e : Err) (s : State) :
    (attemptFailed e s).pageAddr = s.pageAddr :=
  rfl
@[simp] theorem attemptFailed_wordAddr (e : Err) (s : State) :
    (attemptFailed e s).wordAddr = s.wordAddr :=
  rfl
@[simp] theorem attemptFailed_slice (e : Err) (s : State) : (attemptFailed e s).slice = s.slice := rfl
@[simp] theorem attemptFailed_settle (e : Err) (s : State) : (attemptFailed e s).settle = s.settle := rfl
@[simp] theorem attemptFailed_tx (e : Err) (s : State) : (attemptFailed e s).tx = s.tx := rfl
@[simp] theorem attemptFailed_req (e : Err) (s : State) : (attemptFailed e s).req = s.req := rfl
@[simp] theorem attemptFailed_frame (e : Err) (s : State) : (attemptFailed e s).frame = s.frame := rfl
@[simp] theorem attemptFailed_rxActive (e : Err) (s : State) :
    (attemptFailed e s).rxActive = s.rxActive :=
  rfl
@[simp] theorem attemptFailed_rxPend (e : Err) (s : State) : (attemptFailed e s).rxPend = s.rxPend := rfl
@[simp] theorem attemptFailed_rxSynced (e : Err) (s : State) :
    (attemptFailed e s).rxSynced = s.rxSynced :=
  rfl
@[simp] theorem attemptFailed_rxBuf (e : Err) (s : State) : (attemptFailed e s).rxBuf = s.rxBuf := rfl
@[simp] theorem attemptFailed_rxExp (e : Err) (s : State) : (attemptFailed e s).rxExp = s.rxExp := rfl
@[simp] theorem attemptFailed_rxTo (e : Err) (s : State) : (attemptFailed e s).rxTo = s.rxTo := rfl
@[simp] theorem attemptFailed_rxEl (e : Err) (s : State) : (attemptFailed e s).rxEl = s.rxEl := rfl
@[simp] theorem attemptFailed_result (e : Err) (s : State) : (attemptFailed e s).result = s.result := rfl
@[simp] theorem attemptFailed_sigResp (e : Err) (s : State) : (attemptFailed e s).sigResp = s.sigResp := rfl
@[simp] theorem attemptFailed_timeline (e : Err) (s : State) :
    (attemptFailed e s).timeline = s.timeline :=
  rfl
@[simp] theorem attemptFailed_inq (e : Err) (s : State) : (attemptFailed e s).inq = s.inq := rfl
@[simp] theorem attemptFailed_outs (e : Err) (s : State) : (attemptFailed e s).outs = s.outs := rfl
@[simp] theorem attemptFailed_freeCtr (e : Err) (s : State) : (attemptFailed e s).freeCtr = s.freeCtr := rfl

/-! ### `nextAttempt` -/

@[simp] theorem nextAttempt_params (s : State) : (nextAttempt s).params = s.params := rfl
@[simp] theorem nextAttempt_image (s : State) : (nextAttempt s).image = s.image := rfl
@[simp] theorem nextAttempt_profile (s : State) : (nextAttempt s).profile = s.profile := rfl
@[simp] theorem nextAttempt_attempts (s : State) : (nextAttempt s).attempts = s.attempts := rfl
@[simp] theorem nextAttempt_timeout (s : State) : (nextAttempt s).timeout = s.timeout := rfl
@[simp] theorem nextAttempt_debug (s : State) : (nextAttempt s).debug = s.debug := rfl
@[simp] theorem nextAttempt_mode (s : State) : (nextAttempt s).mode = s.mode := rfl
@[simp] theorem nextAttempt_flashStep (s : State) : (nextAttempt s).flashStep = s.flashStep := rfl
@[simp] theorem nextAttempt_pg (s : State) : (nextAttempt s).pg = s.pg := rfl
@[simp] theorem nextAttempt_syncTry (s : State) : (nextAttempt s).syncTry = s.syncTry + 1 := rfl
@[simp] theorem nextAttempt_syncLast (s : State) : (nextAttempt s).syncLast = s.syncLast := rfl
@[simp] theorem nextAttempt_pageAddr (s : State) : (nextAttempt s).pageAddr = s.pageAddr := rfl
@[simp] theorem nextAttempt_wordAddr (s : State) : (nextAttempt s).wordAddr = s.wordAddr := rfl
@[simp] theorem nextAttempt_slice (s : State) : (nextAttempt s).slice = s.slice := rfl
@[simp] theorem nextAttempt_settle (s : State) : (nextAttempt s).settle = s.settle := rfl
@[simp] theorem nextAttempt_tx (s : State) : (nextAttempt s).tx = s.tx := rfl
@[simp] theorem nextAttempt_req (s : State) : (nextAttempt s).req = s.req := rfl
@[simp] theorem nextAttempt_frame (s : State) : (nextAttempt s).frame = s.frame := rfl
@[simp] theorem nextAttempt_rxActive (s : State) : (nextAttempt s).rxActive = s.rxActive := rfl
@[simp] theorem nextAttempt_rxPend (s : State) : (nextAttempt s).rxPend = s.rxPend := rfl
@[simp] theorem nextAttempt_rxSynced (s : State) : (nextAttempt s).rxSynced = s.rxSynced := rfl
@[simp] theorem nextAttempt_rxBuf (s : State) : (nextAttempt s).rxBuf = s.rxBuf := rfl
@[simp] theorem nextAttempt_rxExp (s : State) : (nextAttempt s).rxExp = s.rxExp := rfl
@[simp] theorem nextAttempt_rxTo (s : State) : (nextAttempt s).rxTo = s.rxTo := rfl
@[simp] theorem nextAttempt_rxEl (s : State) : (nextAttempt s).rxEl = s.rxEl := rfl
@[simp] theorem nextAttempt_result (s : State) : (nextAttempt s).result = s.result := rfl
@[simp] theorem nextAttempt_sigResp (s : State) : (nextAttempt s).sigResp = s.sigResp := rfl
@[simp] theorem nextAttempt_timeline (s : State) : (nextAttempt s).timeline = s.timeline := rfl
@[simp] theorem nextAttempt_inq (s : State) : (nextAttempt s).inq = s.inq := rfl
@[simp] theorem nextAttempt_outs (s : State) : (nextAttempt s).outs = s.outs := rfl
@[simp] theorem nextAttempt_freeCtr (s : State) : (nextAttempt s).freeCtr = s.freeCtr := rfl

/-! ### `keepSignature` -/

@[simp] theorem keepSignature_params (b : Bytes) (s : State) : (keepSignature b s).params = s.params := rfl
@[simp] theorem keepSignature_image (b : Bytes) (s : State) : (keepSignature b s).image = s.image := rfl
@[simp] theorem keepSignature_profile (b : Bytes) (s : State) :
    (keepSignature b s).profile = s.profile :=
  rfl
@[simp] theorem keepSignature_attempts (b : Bytes) (s : State) :
    (keepSignature b s).attempts = s.attempts :=
  rfl
@[simp] theorem keepSignature_timeout (b : Bytes) (s : State) :
    (keepSignature b s).timeout = s.timeout :=
  rfl
@[simp] theorem keepSignature_debug (b : Bytes) (s : State) : (keepSignature b s).debug = s.debug := rfl
@[simp] theorem keepSignature_mode (b : Bytes) (s : State) : (keepSignature b s).mode = s.mode := rfl
@[simp] theorem keepSignature_flashStep (b : Bytes) (s : State) :
    (keepSignature b s).flashStep = s.flashStep :=
  rfl
@[simp] theorem keepSignature_pg (b : Bytes) (s : State) : (keepSignature b s).pg = s.pg := rfl
@[simp] theorem keepSignature_syncTry (b : Bytes) (s : State) :
    (keepSignature b s).syncTry = s.syncTry :=
  rfl
@[simp] theorem keepSignature_syncLast (b : Bytes) (s : State) :
    (keepSignature b s).syncLast = s.syncLast :=
  rfl
@[simp] theorem keepSignature_pageAddr (b : Bytes) (s : State) :
    (keepSignature b s).pageAddr = s.pageAddr :=
  rfl
@[simp] theorem keepSignature_wordAddr (b : Bytes) (s : State) :
    (keepSignature b s).wordAddr = s.wordAddr :=
  rfl
@[simp] theorem keepSignature_slice (b : Bytes) (s : State) : (keepSignature b s).slice = s.slice := rfl
@[simp] theorem keepSignature_settle (b : Bytes) (s : State) : (keepSignature b s).settle = s.settle := rfl
@[simp] theorem keepSignature_tx (b : Bytes) (s : State) : (keepSignature b s).tx = s.tx := rfl
@[simp] theorem keepSignature_req (b : Bytes) (s : State) : (keepSignature b s).req = s.req := rfl
@[simp] theorem keepSignature_frame (b : Bytes) (s : State) : (keepSignature b s).frame = s.frame := rfl
@[simp] theorem keepSignature_rxActive (b : Bytes) (s : State) :
    (keepSignature b s).rxActive = s.rxActive :=
  rfl
@[simp] theorem keepSignature_rxPend (b : Bytes) (s : State) : (keepSignature b s).rxPend = s.rxPend := rfl
@[simp] theorem keepSignature_rxSynced (b : Bytes) (s : State) :
    (keepSignature b s).rxSynced = s.rxSynced :=
  rfl
@[simp] theorem keepSignature_rxBuf (b : Bytes) (s : State) : (keepSignature b s).rxBuf = s.rxBuf := rfl
@[simp] theorem keepSignature_rxExp (b : Bytes) (s : State) : (keepSignature b s).rxExp = s.rxExp := rfl
@[simp] theorem keepSignature_rxTo (b : Bytes) (s : State) : (keepSignature b s).rxTo = s.rxTo := rfl
@[simp] theorem keepSignature_rxEl (b : Bytes) (s : State) : (keepSignature b s).rxEl = s.rxEl := rfl
@[simp] theorem keepSignature_result (b : Bytes) (s : State) : (keepSignature b s).result = s.result := rfl
@[simp] theorem keepSignature_sigResp (b : Bytes) (s : State) : (keepSignature b s).sigResp = b := rfl
@[simp] theorem keepSignature_timeline (b : Bytes) (s : State) :
    (keepSignature b s).timeline = s.timeline :=
  rfl
@[simp] theorem keepSignature_inq (b : Bytes) (s : State) : (keepSignature b s).inq = s.inq := rfl
@[simp] theorem keepSignature_outs (b : Bytes) (s : State) : (keepSignature b s).outs = s.outs := rfl
@[simp] theorem keepSignature_freeCtr (b : Bytes) (s : State) :
    (keepSignature b s).freeCtr = s.freeCtr :=
  rfl

/-! ### `rewindCursor` -/

@[simp] theorem rewindCursor_params (s : State) : (rewindCursor s).params = s.params := rfl
@[simp] theorem rewindCursor_image (s : State) : (rewindCursor s).image = s.image := rfl
@[simp] theorem rewindCursor_profile (s : State) : (rewindCursor s).profile = s.profile := rfl
@[simp] theorem rewindCursor_attempts (s : State) : (rewindCursor s).attempts = s.attempts := rfl
@[simp] theorem rewindCursor_timeout (s : State) : (rewindCursor s).timeout = s.timeout := rfl
@[simp] theorem rewindCursor_debug (s : State) : (rewindCursor s).debug = s.debug := rfl
@[simp] theorem rewindCursor_mode (s : State) : (rewindCursor s).mode = s.mode := rfl
@[simp] theorem rewindCursor_flashStep (s : State) : (rewindCursor s).flashStep = s.flashStep := rfl
@[simp] theorem rewindCursor_pg (s : State) : (rewindCursor s).pg = s.pg := rfl
@[simp] theorem rewindCursor_syncTry (s : State) : (rewindCursor s).syncTry = s.syncTry := rfl
@[simp] theorem rewindCursor_syncLast (s : State) : (rewindCursor s).syncLast = s.syncLast := rfl
@[simp] theorem rewindCursor_pageAddr (s : State) : (rewindCursor s).pageAddr = 0 := rfl
@[simp] theorem rewindCursor_wordAddr (s : State) : (rewindCursor s).wordAddr = s.wordAddr := rfl
@[simp] theorem rewindCursor_slice (s : State) : (rewindCursor s).slice = s.slice := rfl
@[simp] theorem rewindCursor_settle (s : State) : (rewindCursor s).settle = s.settle := rfl
@[simp] theorem rewindCursor_tx (s : State) : (rewindCursor s).tx = s.tx := rfl
@[simp] theorem rewindCursor_req (s : State) : (rewindCursor s).req = s.req := rfl
@[simp] theorem rewindCursor_frame (s : State) : (rewindCursor s).frame = s.frame := rfl
@[simp] theorem rewindCursor_rxActive (s : State) : (rewindCursor s).rxActive = s.rxActive := rfl
@[simp] theorem rewindCursor_rxPend (s : State) : (rewindCursor s).rxPend = s.rxPend := rfl
@[simp] theorem rewindCursor_rxSynced (s : State) : (rewindCursor s).rxSynced = s.rxSynced := rfl
@[simp] theorem rewindCursor_rxBuf (s : State) : (rewindCursor s).rxBuf = s.rxBuf := rfl
@[simp] theorem rewindCursor_rxExp (s : State) : (rewindCursor s).rxExp = s.rxExp := rfl
@[simp] theorem rewindCursor_rxTo (s : State) : (rewindCursor s).rxTo = s.rxTo := rfl
@[simp] theorem rewindCursor_rxEl (s : State) : (rewindCursor s).rxEl = s.rxEl := rfl
@[simp] theorem rewindCursor_result (s : State) : (rewindCursor s).result = s.result := rfl
@[simp] theorem rewindCursor_sigResp (s : State) : (rewindCursor s).sigResp = s.sigResp := rfl
@[simp] theorem rewindCursor_timeline (s : State) : (rewindCursor s).timeline = s.timeline := rfl
@[simp] theorem rewindCursor_inq (s : State) : (rewindCursor s).inq = s.inq := rfl
@[simp] theorem rewindCursor_outs (s : State) : (rewindCursor s).outs = s.outs := rfl
@[simp] theorem rewindCursor_freeCtr (s : State) : (rewindCursor s).freeCtr = s.freeCtr := rfl

/-! ### `addressPage` -/

@[simp] theorem addressPage_params (s : State) : (addressPage s).params = s.params := rfl
@[simp] theorem addressPage_image (s : State) : (addressPage s).image = s.image := rfl
@[simp] theorem addressPage_profile (s : State) : (addressPage s).profile = s.profile := rfl
@[simp] theorem addressPage_attempts (s : State) : (addressPage s).attempts = s.attempts := rfl
@[simp] theorem addressPage_timeout (s : State) : (addressPage s).timeout = s.timeout := rfl
@[simp] theorem addressPage_debug (s : State) : (addressPage s).debug = s.debug := rfl
@[simp] theorem addressPage_mode (s : State) : (addressPage s).mode = s.mode := rfl
@[simp] theorem addressPage_flashStep (s : State) : (addressPage s).flashStep = s.flashStep := rfl
@[simp] theorem addressPage_pg (s : State) : (addressPage s).pg = .loadAddr := rfl
@[simp] theorem addressPage_syncTry (s : State) : (addressPage s).syncTry = s.syncTry := rfl
@[simp] theorem addressPage_syncLast (s : State) : (addressPage s).syncLast = s.syncLast := rfl
@[simp] theorem addressPage_pageAddr (s : State) : (addressPage s).pageAddr = s.pageAddr := rfl
@[simp] theorem addressPage_wordAddr (s : State) : (addressPage s).wordAddr = wordAddrOf s.pageAddr := rfl
@[simp] theorem addressPage_slice (s : State) : (addressPage s).slice = s.slice := rfl
@[simp] theorem addressPage_settle (s : State) : (addressPage s).settle = s.settle := rfl
@[simp] theorem addressPage_tx (s : State) : (addressPage s).tx = s.tx := rfl
@[simp] theorem addressPage_req (s : State) : (addressPage s).req = s.req := rfl
@[simp] theorem addressPage_frame (s : State) : (addressPage s).frame = s.frame := rfl
@[simp] theorem addressPage_rxActive (s : State) : (addressPage s).rxActive = s.rxActive := rfl
@[simp] theorem addressPage_rxPend (s : State) : (addressPage s).rxPend = s.rxPend := rfl
@[simp] theorem addressPage_rxSynced (s : State) : (addressPage s).rxSynced = s.rxSynced := rfl
@[simp] theorem addressPage_rxBuf (s : State) : (addressPage s).rxBuf = s.rxBuf := rfl
@[simp] theorem addressPage_rxExp (s : State) : (addressPage s).rxExp = s.rxExp := rfl
@[simp] theorem addressPage_rxTo (s : State) : (addressPage s).rxTo = s.rxTo := rfl
@[simp] theorem addressPage_rxEl (s : State) : (addressPage s).rxEl = s.rxEl := rfl
@[simp] theorem addressPage_result (s : State) : (addressPage s).result = s.result := rfl
@[simp] theorem addressPage_sigResp (s : State) : (addressPage s).sigResp = s.sigResp := rfl
@[simp] theorem addressPage_timeline (s : State) : (addressPage s).timeline = s.timeline := rfl
@[simp] theorem addressPage_inq (s : State) : (addressPage s).inq = s.inq := rfl
@[simp] theorem addressPage_outs (s : State) : (addressPage s).outs = s.outs := rfl
@[simp] theorem addressPage_freeCtr (s : State) : (addressPage s).freeCtr = s.freeCtr := rfl

/-! ### `fetchSlice` -/

@[simp] theorem fetchSlice_params (s : State) : (fetchSlice s).params = s.params := rfl
@[simp] theorem fetchSlice_image (s : State) : (fetchSlice s).image = s.image := rfl
@[simp] theorem fetchSlice_profile (s : State) : (fetchSlice s).profile = s.profile := rfl
@[simp] theorem fetchSlice_attempts (s : State) : (fetchSlice s).attempts = s.attempts := rfl
@[simp] theorem fetchSlice_timeout (s : State) : (fetchSlice s).timeout = s.timeout := rfl
@[simp] theorem fetchSlice_debug (s : State) : (fetchSlice s).debug = s.debug := rfl
@[simp] theorem fetchSlice_mode (s : State) : (fetchSlice s).mode = s.mode := rfl
@[simp] theorem fetchSlice_flashStep (s : State) : (fetchSlice s).flashStep = s.flashStep := rfl
@[simp] theorem fetchSlice_pg (s : State) : (fetchSlice s).pg = .pageCmd := rfl
@[simp] theorem fetchSlice_syncTry (s : State) : (fetchSlice s).syncTry = s.syncTry := rfl
@[simp] theorem fetchSlice_syncLast (s : State) : (fetchSlice s).syncLast = s.syncLast := rfl
@[simp] theorem fetchSlice_pageAddr (s : State) : (fetchSlice s).pageAddr = s.pageAddr := rfl
@[simp] theorem fetchSlice_wordAddr (s : State) : (fetchSlice s).wordAddr = s.wordAddr := rfl
@[simp] theorem fetchSlice_slice (s : State) : (fetchSlice s).slice = currentSlice s := rfl
@[simp] theorem fetchSlice_settle (s : State) : (fetchSlice s).settle = s.settle := rfl
@[simp] theorem fetchSlice_tx (s : State) : (fetchSlice s).tx = s.tx := rfl
@[simp] theorem fetchSlice_req (s : State) : (fetchSlice s).req = s.req := rfl
@[simp] theorem fetchSlice_frame (s : State) : (fetchSlice s).frame = s.frame := rfl
@[simp] theorem fetchSlice_rxActive (s : State) : (fetchSlice s).rxActive = s.rxActive := rfl
@[simp] theorem fetchSlice_rxPend (s : State) : (fetchSlice s).rxPend = s.rxPend := rfl
@[simp] theorem fetchSlice_rxSynced (s : State) : (fetchSlice s).rxSynced = s.rxSynced := rfl
@[simp] theorem fetchSlice_rxBuf (s : State) : (fetchSlice s).rxBuf = s.rxBuf := rfl
@[simp] theorem fetchSlice_rxExp (s : State) : (fetchSlice s).rxExp = s.rxExp := rfl
@[simp] theorem fetchSlice_rxTo (s : State) : (fetchSlice s).rxTo = s.rxTo := rfl
@[simp] theorem fetchSlice_rxEl (s : State) : (fetchSlice s).rxEl = s.rxEl := rfl
@[simp] theorem fetchSlice_result (s : State) : (fetchSlice s).result = s.result := rfl
@[simp] theorem fetchSlice_sigResp (s : State) : (fetchSlice s).sigResp = s.sigResp := rfl
@[simp] theorem fetchSlice_timeline (s : State) : (fetchSlice s).timeline = s.timeline := rfl
@[simp] theorem fetchSlice_inq (s : State) : (fetchSlice s).inq = s.inq := rfl
@[simp] theorem fetchSlice_outs (s : State) : (fetchSlice s).outs = s.outs := rfl
@[simp] theorem fetchSlice_freeCtr (s : State) : (fetchSlice s).freeCtr = s.freeCtr := rfl

/-! ### `openSession` -/

@[simp] theorem openSession_params (img : Bytes) (prof : Profile) (opts : Options) (s : State) :
    (openSession img prof opts s).params = s.params :=
  rfl
@[simp] theorem openSession_image (img : Bytes) (prof : Profile) (opts : Options) (s : State) :
    (openSession img prof opts s).image = img :=
  rfl
@[simp] theorem openSession_profile (img : Bytes) (prof : Profile) (opts : Options) (s : State) :
    (openSession img prof opts s).profile = prof :=
  rfl
@[simp] theorem openSession_attempts (img : Bytes) (prof : Profile) (opts : Options) (s : State) :
    (openSession img prof opts s).attempts = opts.attempts :=
  rfl
@[simp] theorem openSession_timeout (img : Bytes) (prof : Profile) (opts : Options) (s : State) :
    (openSession img prof opts s).timeout = opts.timeout :=
  rfl
@[simp] theorem openSession_debug (img : Bytes) (prof : Profile) (opts : Options) (s : State) :
    (openSession img prof opts s).debug = opts.debug :=
  rfl
@[simp] theorem openSession_mode (img : Bytes) (prof : Profile) (opts : Options) (s : State) :
    (openSession img prof opts s).mode = .flash :=
  rfl
@[simp] theorem openSession_flashStep (img : Bytes) (prof : Profile) (opts : Options) (s : State) :
    (openSession img prof opts s).flashStep = s.flashStep :=
  rfl
@[simp] theorem openSession_pg (img : Bytes) (prof : Profile) (opts : Options) (s : State) :
    (openSession img prof opts s).pg = .none :=
  rfl
@[simp] theorem openSession_syncTry (img : Bytes) (prof : Profile) (opts : Options) (s : State) :
    (openSession img prof opts s).syncTry = s.syncTry :=
  rfl
@[simp] theorem openSession_syncLast (img : Bytes) (prof : Profile) (opts : Options) (s : State) :
    (openSession img prof opts s).syncLast = s.syncLast :=
  rfl
@[simp] theorem openSession_pageAddr (img : Bytes) (prof : Profile) (opts : Options) (s : State) :
    (openSession img prof opts s).pageAddr = 0 :=
  rfl
@[simp] theorem openSession_wordAddr (img : Bytes) (prof : Profile) (opts : Options) (s : State) :
    (openSession img prof opts s).wordAddr = 0 :=
  rfl
@[simp] theorem openSession_slice (img : Bytes) (prof : Profile) (opts : Options) (s : State) :
    (openSession img prof opts s).slice = [] :=
  rfl
@[simp] theorem openSession_settle (img : Bytes) (prof : Profile) (opts : Options) (s : State) :
    (openSession img prof opts s).settle = 0 :=
  rfl
@[simp] theorem openSession_tx (img : Bytes) (prof : Profile) (opts : Options) (s : State) :
    (openSession img prof opts s).tx = s.tx :=
  rfl
@[simp] theorem openSession_req (img : Bytes) (prof : Profile) (opts : Options) (s : State) :
    (openSession img prof opts s).req = s.req :=
  rfl
@[simp] theorem openSession_frame (img : Bytes) (prof : Profile) (opts : Options) (s : State) :
    (openSession img prof opts s).frame = s.frame :=
  rfl
@[simp] theorem openSession_rxActive (img : Bytes) (prof : Profile) (opts : Options) (s : State) :
    (openSession img prof opts s).rxActive = s.rxActive :=
  rfl
@[simp] theorem openSession_rxPend (img : Bytes) (prof : Profile) (opts : Options) (s : State) :
    (openSession img prof opts s).rxPend = s.rxPend :=
  rfl
@[simp] theorem openSession_rxSynced (img : Bytes) (prof : Profile) (opts : Options) (s : State) :
    (openSession img prof opts s).rxSynced = s.rxSynced :=
  rfl
@[simp] theorem openSession_rxBuf (img : Bytes) (prof : Profile) (opts : Options) (s : State) :
    (openSession img prof opts s).rxBuf = s.rxBuf :=
  rfl
@[simp] theorem openSession_rxExp (img : Bytes) (prof : Profile) (opts : Options) (s : State) :
    (openSession img prof opts s).rxExp = s.rxExp :=
  rfl
@[simp] theorem openSession_rxTo (img : Bytes) (prof : Profile) (opts : Options) (s : State) :
    (openSession img prof opts s).rxTo = s.rxTo :=
  rfl
@[simp] theorem openSession_rxEl (img : Bytes) (prof : Profile) (opts : Options) (s : State) :
    (openSession img prof opts s).rxEl = s.rxEl :=
  rfl
@[simp] theorem openSession_result (img : Bytes) (prof : Profile) (opts : Options) (s : State) :
    (openSession img prof opts s).result = none :=
  rfl
@[simp] theorem openSession_sigResp (img : Bytes) (prof : Profile) (opts : Options) (s : State) :
    (openSession img prof opts s).sigResp = [] :=
  rfl
@[simp] theorem openSession_timeline (img : Bytes) (prof : Profile) (opts : Options) (s : State) :
    (openSession img prof opts s).timeline = [] :=
  rfl
@[simp] theorem openSession_inq (img : Bytes) (prof : Profile) (opts : Options) (s : State) :
    (openSession img prof opts s).inq = s.inq :=
  rfl
@[simp] theorem openSession_outs (img : Bytes) (prof : Profile) (opts : Options) (s : State) :
    (openSession img prof opts s).outs = s.outs :=
  rfl
@[simp] theorem openSession_freeCtr (img : Bytes) (prof : Profile) (opts : Options) (s : State) :
    (openSession img prof opts s).freeCtr = s.freeCtr :=
  rfl

/-! ### `openSync` -/

@[simp] theorem openSync_params (a t : Nat) (s : State) : (openSync a t s).params = s.params := rfl
@[simp] theorem openSync_image (a t : Nat) (s : State) : (openSync a t s).image = s.image := rfl
@[simp] theorem openSync_profile (a t : Nat) (s : State) : (openSync a t s).profile = s.profile := rfl
@[simp] theorem openSync_attempts (a t : Nat) (s : State) : (openSync a t s).attempts = a := rfl
@[simp] theorem openSync_timeout (a t : Nat) (s : State) : (openSync a t s).timeout = t := rfl
@[simp] theorem openSync_debug (a t : Nat) (s : State) : (openSync a t s).debug = false := rfl
@[simp] theorem openSync_mode (a t : Nat) (s : State) : (openSync a t s).mode = .syncOp := rfl
@[simp] theorem openSync_flashStep (a t : Nat) (s : State) : (openSync a t s).flashStep = .none := rfl
@[simp] theorem openSync_pg (a t : Nat) (s : State) : (openSync a t s).pg = s.pg := rfl
@[simp] theorem openSync_syncTry (a t : Nat) (s : State) : (openSync a t s).syncTry = s.syncTry := rfl
@[simp] theorem openSync_syncLast (a t : Nat) (s : State) : (openSync a t s).syncLast = s.syncLast := rfl
@[simp] theorem openSync_pageAddr (a t : Nat) (s : State) : (openSync a t s).pageAddr = s.pageAddr := rfl
@[simp] theorem openSync_wordAddr (a t : Nat) (s : State) : (openSync a t s).wordAddr = s.wordAddr := rfl
@[simp] theorem openSync_slice (a t : Nat) (s : State) : (openSync a t s).slice = s.slice := rfl
@[simp] theorem openSync_settle (a t : Nat) (s : State) : (openSync a t s).settle = s.settle := rfl
@[simp] theorem openSync_tx (a t : Nat) (s : State) : (openSync a t s).tx = s.tx := rfl
@[simp] theorem openSync_req (a t : Nat) (s : State) : (openSync a t s).req = s.req := rfl
@[simp] theorem openSync_frame (a t : Nat) (s : State) : (openSync a t s).frame = s.frame := rfl
@[simp] theorem openSync_rxActive (a t : Nat) (s : State) : (openSync a t s).rxActive = s.rxActive := rfl
@[simp] theorem openSync_rxPend (a t : Nat) (s : State) : (openSync a t s).rxPend = s.rxPend := rfl
@[simp] theorem openSync_rxSynced (a t : Nat) (s : State) : (openSync a t s).rxSynced = s.rxSynced := rfl
@[simp] theorem openSync_rxBuf (a t : Nat) (s : State) : (openSync a t s).rxBuf = s.rxBuf := rfl
@[simp] theorem openSync_rxExp (a t : Nat) (s : State) : (openSync a t s).rxExp = s.rxExp := rfl
@[simp] theorem openSync_rxTo (a t : Nat) (s : State) : (openSync a t s).rxTo = s.rxTo := rfl
@[simp] theorem openSync_rxEl (a t : Nat) (s : State) : (openSync a t s).rxEl = s.rxEl := rfl
@[simp] theorem openSync_result (a t : Nat) (s : State) : (openSync a t s).result = none := rfl
@[simp] theorem openSync_sigResp (a t : Nat) (s : State) : (openSync a t s).sigResp = s.sigResp := rfl
@[simp] theorem openSync_timeline (a t : Nat) (s : State) : (openSync a t s).timeline = s.timeline := rfl
@[simp] theorem openSync_inq (a t : Nat) (s : State) : (openSync a t s).inq = s.inq := rfl
@[simp] theorem openSync_outs (a t : Nat) (s : State) : (openSync a t s).outs = s.outs := rfl
@[simp] theorem openSync_freeCtr (a t : Nat) (s : State) : (openSync a t s).freeCtr = s.freeCtr := rfl

/-! ### `openCommand` -/

@[simp] theorem openCommand_params (s : State) : (openCommand s).params = s.params := rfl
@[simp] theorem openCommand_image (s : State) : (openCommand s).image = s.image := rfl
@[simp] theorem openCommand_profile (s : State) : (openCommand s).profile = s.profile := rfl
@[simp] theorem openCommand_attempts (s : State) : (openCommand s).attempts = s.attempts := rfl
@[simp] theorem openCommand_timeout (s : State) : (openCommand s).timeout = s.timeout := rfl
@[simp] theorem openCommand_debug (s : State) : (openCommand s).debug = false := rfl
@[simp] theorem openCommand_mode (s : State) : (openCommand s).mode = .cmdOp := rfl
@[simp] theorem openCommand_flashStep (s : State) : (openCommand s).flashStep = .none := rfl
@[simp] theorem openCommand_pg (s : State) : (openCommand s).pg = s.pg := rfl
@[simp] theorem openCommand_syncTry (s : State) : (openCommand s).syncTry = s.syncTry := rfl
@[simp] theorem openCommand_syncLast (s : State) : (openCommand s).syncLast = s.syncLast := rfl
@[simp] theorem openCommand_pageAddr (s : State) : (openCommand s).pageAddr = s.pageAddr := rfl
@[simp] theorem openCommand_wordAddr (s : State) : (openCommand s).wordAddr = s.wordAddr := rfl
@[simp] theorem openCommand_slice (s : State) : (openCommand s).slice = s.slice := rfl
@[simp] theorem openCommand_settle (s : State) : (openCommand s).settle = s.settle := rfl
@[simp] theorem openCommand_tx (s : State) : (openCommand s).tx = s.tx := rfl
@[simp] theorem openCommand_req (s : State) : (openCommand s).req = s.req := rfl
@[simp] theorem openCommand_frame (s : State) : (openCommand s).frame = s.frame := rfl
@[simp] theorem openCommand_rxActive (s : State) : (openCommand s).rxActive = s.rxActive := rfl
@[simp] theorem openCommand_rxPend (s : State) : (openCommand s).rxPend = s.rxPend := rfl
@[simp] theorem openCommand_rxSynced (s : State) : (openCommand s).rxSynced = s.rxSynced := rfl
@[simp] theorem openCommand_rxBuf (s : State) : (openCommand s).rxBuf = s.rxBuf := rfl
@[simp] theorem openCommand_rxExp (s : State) : (openCommand s).rxExp = s.rxExp := rfl
@[simp] theorem openCommand_rxTo (s : State) : (openCommand s).rxTo = s.rxTo := rfl
@[simp] theorem openCommand_rxEl (s : State) : (openCommand s).rxEl = s.rxEl := rfl
@[simp] theorem openCommand_result (s : State) : (openCommand s).result = none := rfl
@[simp] theorem openCommand_sigResp (s : State) : (openCommand s).sigResp = s.sigResp := rfl
@[simp] theorem openCommand_timeline (s : State) : (openCommand s).timeline = s.timeline := rfl
@[simp] theorem openCommand_inq (s : State) : (openCommand s).inq = s.inq := rfl
@[simp] theorem openCommand_outs (s : State) : (openCommand s).outs = s.outs := rfl
@[simp] theorem openCommand_freeCtr (s : State) : (openCommand s).freeCtr = s.freeCtr := rfl

/-! ### `consumed` -/

@[simp] theorem consumed_params (r : Bytes) (s : State) : (consumed r s).params = s.params := rfl
@[simp] theorem consumed_image (r : Bytes) (s : State) : (consumed r s).image = s.image := rfl
@[simp] theorem consumed_profile (r : Bytes) (s : State) : (consumed r s).profile = s.profile := rfl
@[simp] theorem consumed_attempts (r : Bytes) (s : State) : (consumed r s).attempts = s.attempts := rfl
@[simp] theorem consumed_timeout (r : Bytes) (s : State) : (consumed r s).timeout = s.timeout := rfl
@[simp] theorem consumed_debug (r : Bytes) (s : State) : (consumed r s).debug = s.debug := rfl
@[simp] theorem consumed_mode (r : Bytes) (s : State) : (consumed r s).mode = s.mode := rfl
@[simp] theorem consumed_flashStep (r : Bytes) (s : State) : (consumed r s).flashStep = s.flashStep := rfl
@[simp] theorem consumed_pg (r : Bytes) (s : State) : (consumed r s).pg = s.pg := rfl
@[simp] theorem consumed_syncTry (r : Bytes) (s : State) : (consumed r s).syncTry = s.syncTry := rfl
@[simp] theorem consumed_syncLast (r : Bytes) (s : State) : (consumed r s).syncLast = s.syncLast := rfl
@[simp] theorem consumed_pageAddr (r : Bytes) (s : State) : (consumed r s).pageAddr = s.pageAddr := rfl
@[simp] theorem consumed_wordAddr (r : Bytes) (s : State) : (consumed r s).wordAddr = s.wordAddr := rfl
@[simp] theorem consumed_slice (r : Bytes) (s : State) : (consumed r s).slice = s.slice := rfl
@[simp] theorem consumed_settle (r : Bytes) (s : State) : (consumed r s).settle = s.settle := rfl
@[simp] theorem consumed_tx (r : Bytes) (s : State) : (consumed r s).tx = s.tx := rfl
@[simp] theorem consumed_req (r : Bytes) (s : State) : (consumed r s).req = s.req := rfl
@[simp] theorem consumed_frame (r : Bytes) (s : State) : (consumed r s).frame = s.frame := rfl
@[simp] theorem consumed_rxActive (r : Bytes) (s : State) : (consumed r s).rxActive = s.rxActive := rfl
@[simp] theorem consumed_rxPend (r : Bytes) (s : State) : (consumed r s).rxPend = s.rxPend := rfl
@[simp] theorem consumed_rxSynced (r : Bytes) (s : State) : (consumed r s).rxSynced = s.rxSynced := rfl
@[simp] theorem consumed_rxBuf (r : Bytes) (s : State) : (consumed r s).rxBuf = s.rxBuf := rfl
@[simp] theorem consumed_rxExp (r : Bytes) (s : State) : (consumed r s).rxExp = s.rxExp := rfl
@[simp] theorem consumed_rxTo (r : Bytes) (s : State) : (consumed r s).rxTo = s.rxTo := rfl
@[simp] theorem consumed_rxEl (r : Bytes) (s : State) : (consumed r s).rxEl = s.rxEl := rfl
@[simp] theorem consumed_result (r : Bytes) (s : State) : (consumed r s).result = s.result := rfl
@[simp] theorem consumed_sigResp (r : Bytes) (s : State) : (consumed r s).sigResp = s.sigResp := rfl
@[simp] theorem consumed_timeline (r : Bytes) (s : State) : (consumed r s).timeline = s.timeline := rfl
@[simp] theorem consumed_inq (r : Bytes) (s : State) : (consumed r s).inq = r := rfl
@[simp] theorem consumed_outs (r : Bytes) (s : State) : (consumed r s).outs = s.outs := rfl
@[simp] theorem consumed_freeCtr (r : Bytes) (s : State) : (consumed r s).freeCtr = s.freeCtr := rfl

/-! ### `enterStep` -/

@[simp] theorem enterStep_params (st : FlashStep) (s : State) :
    (enterStep st s).params = s.params :=
  by simp [enterStep]
@[simp] theorem enterStep_image (st : FlashStep) (s : State) :
    (enterStep st s).image = s.image :=
  by simp [enterStep]
@[simp] theorem enterStep_profile (st : FlashStep) (s : State) :
    (enterStep st s).profile = s.profile :=
  by simp [enterStep]
@[simp] theorem enterStep_attempts (st : FlashStep) (s : State) :
    (enterStep st s).attempts = s.attempts :=
  by simp [enterStep]
@[simp] theorem enterStep_timeout (st : FlashStep) (s : State) :
    (enterStep st s).timeout = s.timeout :=
  by simp [enterStep]
@[simp] theorem enterStep_debug (st : FlashStep) (s : State) :
    (enterStep st s).debug = s.debug :=
  by simp [enterStep]
@[simp] theorem enterStep_mode (st : FlashStep) (s : State) :
    (enterStep st s).mode = s.mode :=
  by simp [enterStep]
@[simp] theorem enterStep_flashStep (st : FlashStep) (s : State) :
    (enterStep st s).flashStep = st :=
  by simp [enterStep]
@[simp] theorem enterStep_pg (st : FlashStep) (s : State) :
    (enterStep st s).pg = s.pg :=
  by simp [enterStep]
@[simp] theorem enterStep_syncTry (st : FlashStep) (s : State) :
    (enterStep st s).syncTry = s.syncTry :=
  by simp [enterStep]
@[simp] theorem enterStep_syncLast (st : FlashStep) (s : State) :
    (enterStep st s).syncLast = s.syncLast :=
  by simp [enterStep]
@[simp] theorem enterStep_pageAddr (st : FlashStep) (s : State) :
    (enterStep st s).pageAddr = s.pageAddr :=
  by simp [enterStep]
@[simp] theorem enterStep_wordAddr (st : FlashStep) (s : State) :
    (enterStep st s).wordAddr = s.wordAddr :=
  by simp [enterStep]
@[simp] theorem enterStep_slice (st : FlashStep) (s : State) :
    (enterStep st s).slice = s.slice :=
  by simp [enterStep]
@[simp] theorem enterStep_settle (st : FlashStep) (s : State) :
    (enterStep st s).settle = s.settle :=
  by simp [enterStep]
@[simp] theorem enterStep_tx (st : FlashStep) (s : State) :
    (enterStep st s).tx = s.tx :=
  by simp [enterStep]
@[simp] theorem enterStep_req (st : FlashStep) (s : State) :
    (enterStep st s).req = s.req :=
  by simp [enterStep]
@[simp] theorem enterStep_frame (st : FlashStep) (s : State) :
    (enterStep st s).frame = s.frame :=
  by simp [enterStep]
@[simp] theorem enterStep_rxActive (st : FlashStep) (s : State) :
    (enterStep st s).rxActive = s.rxActive :=
  by simp [enterStep]
@[simp] theorem enterStep_rxPend (st : FlashStep) (s : State) :
    (enterStep st s).rxPend = s.rxPend :=
  by simp [enterStep]
@[simp] theorem enterStep_rxSynced (st : FlashStep) (s : State) :
    (enterStep st s).rxSynced = s.rxSynced :=
  by simp [enterStep]
@[simp] theorem enterStep_rxBuf (st : FlashStep) (s : State) :
    (enterStep st s).rxBuf = s.rxBuf :=
  by simp [enterStep]
@[simp] theorem enterStep_rxExp (st : FlashStep) (s : State) :
    (enterStep st s).rxExp = s.rxExp :=
  by simp [enterStep]
@[simp] theorem enterStep_rxTo (st : FlashStep) (s : State) :
    (enterStep st s).rxTo = s.rxTo :=
  by simp [enterStep]
@[simp] theorem enterStep_rxEl (st : FlashStep) (s : State) :
    (enterStep st s).rxEl = s.rxEl :=
  by simp [enterStep]
@[simp] theorem enterStep_result (st : FlashStep) (s : State) :
    (enterStep st s).result = s.result :=
  by simp [enterStep]
@[simp] theorem enterStep_sigResp (st : FlashStep) (s : State) :
    (enterStep st s).sigResp = s.sigResp :=
  by simp [enterStep]
@[simp] theorem enterStep_timeline (st : FlashStep) (s : State) :
    (enterStep st s).timeline = s.timeline :=
  by simp [enterStep]
@[simp] theorem enterStep_inq (st : FlashStep) (s : State) :
    (enterStep st s).inq = s.inq :=
  by simp [enterStep]
@[simp] theorem enterStep_outs (st : FlashStep) (s : State) :
    (enterStep st s).outs = s.outs ++ traceOf s.debug (.stepStarted st) :=
  by simp [enterStep]
@[simp] theorem enterStep_freeCtr (st : FlashStep) (s : State) :
    (enterStep st s).freeCtr = s.freeCtr :=
  by simp [enterStep]

/-! ### `stepSucceeded` -/

@[simp] theorem stepSucceeded_params (s : State) :
    (stepSucceeded s).params = s.params :=
  by simp [stepSucceeded]
@[simp] theorem stepSucceeded_image (s : State) :
    (stepSucceeded s).image = s.image :=
  by simp [stepSucceeded]
@[simp] theorem stepSucceeded_profile (s : State) :
    (stepSucceeded s).profile = s.profile :=
  by simp [stepSucceeded]
@[simp] theorem stepSucceeded_attempts (s : State) :
    (stepSucceeded s).attempts = s.attempts :=
  by simp [stepSucceeded]
@[simp] theorem stepSucceeded_timeout (s : State) :
    (stepSucceeded s).timeout = s.timeout :=
  by simp [stepSucceeded]
@[simp] theorem stepSucceeded_debug (s : State) :
    (stepSucceeded s).debug = s.debug :=
  by simp [stepSucceeded]
@[simp] theorem stepSucceeded_mode (s : State) : (stepSucceeded s).mode = s.mode := by simp [stepSucceeded]
@[simp] theorem stepSucceeded_flashStep (s : State) :
    (stepSucceeded s).flashStep = s.flashStep :=
  by simp [stepSucceeded]
@[simp] theorem stepSucceeded_pg (s : State) : (stepSucceeded s).pg = s.pg := by simp [stepSucceeded]
@[simp] theorem stepSucceeded_syncTry (s : State) :
    (stepSucceeded s).syncTry = s.syncTry :=
  by simp [stepSucceeded]
@[simp] theorem stepSucceeded_syncLast (s : State) :
    (stepSucceeded s).syncLast = s.syncLast :=
  by simp [stepSucceeded]
@[simp] theorem stepSucceeded_pageAddr (s : State) :
    (stepSucceeded s).pageAddr = s.pageAddr :=
  by simp [stepSucceeded]
@[simp] theorem stepSucceeded_wordAddr (s : State) :
    (stepSucceeded s).wordAddr = s.wordAddr :=
  by simp [stepSucceeded]
@[simp] theorem stepSucceeded_slice (s : State) :
    (stepSucceeded s).slice = s.slice :=
  by simp [stepSucceeded]
@[simp] theorem stepSucceeded_settle (s : State) :
    (stepSucceeded s).settle = s.settle :=
  by simp [stepSucceeded]
@[simp] theorem stepSucceeded_tx (s : State) : (stepSucceeded s).tx = s.tx := by simp [stepSucceeded]
@[simp] theorem stepSucceeded_req (s : State) : (stepSucceeded s).req = s.req := by simp [stepSucceeded]
@[simp] theorem stepSucceeded_frame (s : State) :
    (stepSucceeded s).frame = s.frame :=
  by simp [stepSucceeded]
@[simp] theorem stepSucceeded_rxActive (s : State) :
    (stepSucceeded s).rxActive = s.rxActive :=
  by simp [stepSucceeded]
@[simp] theorem stepSucceeded_rxPend (s : State) :
    (stepSucceeded s).rxPend = s.rxPend :=
  by simp [stepSucceeded]
@[simp] theorem stepSucceeded_rxSynced (s : State) :
    (stepSucceeded s).rxSynced = s.rxSynced :=
  by simp [stepSucceeded]
@[simp] theorem stepSucceeded_rxBuf (s : State) :
    (stepSucceeded s).rxBuf = s.rxBuf :=
  by simp [stepSucceeded]
@[simp] theorem stepSucceeded_rxExp (s : State) :
    (stepSucceeded s).rxExp = s.rxExp :=
  by simp [stepSucceeded]
@[simp] theorem stepSucceeded_rxTo (s : State) : (stepSucceeded s).rxTo = s.rxTo := by simp [stepSucceeded]
@[simp] theorem stepSucceeded_rxEl (s : State) : (stepSucceeded s).rxEl = s.rxEl := by simp [stepSucceeded]
@[simp] theorem stepSucceeded_result (s : State) :
    (stepSucceeded s).result = s.result :=
  by simp [stepSucceeded]
@[simp] theorem stepSucceeded_sigResp (s : State) :
    (stepSucceeded s).sigResp = s.sigResp :=
  by simp [stepSucceeded]
@[simp] theorem stepSucceeded_timeline (s : State) :
    (stepSucceeded s).timeline = s.timeline ++ [(s.flashStep, .ok)] :=
  by simp [stepSucceeded]
@[simp] theorem stepSucceeded_inq (s : State) : (stepSucceeded s).inq = s.inq := by simp [stepSucceeded]
@[simp] theorem stepSucceeded_outs (s : State) :
    (stepSucceeded s).outs = s.outs ++ traceOf s.debug (.stepSucceeded s.flashStep) :=
  by simp [stepSucceeded]
@[simp] theorem stepSucceeded_freeCtr (s : State) :
    (stepSucceeded s).freeCtr = s.freeCtr :=
  by simp [stepSucceeded]

end Sys2Proof.Machine
end

