-- ==== Sys2Proof/Laws/Sequencer.lean ====
section
/-!
SUPPORT. What the sequencer can do, said once: the end of a step, the page loop, and the dispatch of a
command's result each answer one of a few next states, built from named operations. A later proof cites
these and never unfolds the sequencer.
-/

namespace Sys2Proof.Machine

/-! ### Whole states of the shared operations -/

/-- R160: issuing GET_SYNC gives the state written out in Safety. -/
theorem issueGetSync_eq (s : State) : issueGetSync s = getSyncIssued s := by
  simp [issueGetSync, cmdIssue, emit, getSyncIssued, issuedAs, getSyncRequest, ackRequest, exactRequest,
    buildFrame, KTable.okBytes]

/-- R191: a failed step with no command in flight gives the state written out in Safety. -/
theorem stepFail_eq (e : Err) (s : State) (h : s.tx = .idle) : stepFail e s = flashFailed e s := by
  simp only [stepFail, finish, emit, leavePage, traceEvent_eq, recordOutcome, flashFailed, h]

/-- R194: the end of an operation with no command in flight gives the state written out in Safety. -/
theorem finish_eq (r : OpResult) (s : State) (h : s.tx = .idle) : finish r s = endedWith r s := by
  simp only [finish, emit, endedWith, h]

/-- R192, R185: a passed step and the next one's begin give the state written out in Safety. -/
theorem enterStep_stepSucceeded_eq (st : FlashStep) (s : State) (h : s.tx = .idle) :
    enterStep st (stepSucceeded s) = stepPassed st s := by
  simp only [enterStep, stepSucceeded, traceEvent_eq, setStep, recordOutcome, stepPassed, h]

/-! ### The page loop -/

/-- The state in which a finished Verify loop leaves the flash (R211, R192). -/
def verifyPassed (s : State) : State := beginExitProgmode (stepSucceeded (leavePage s))

/-- R201: the loop test. -/
theorem pageNext_cases {pageDone : State → Res} {s t : State} (h : pageNext pageDone s = .next t) :
    (s.pageAddr < s.image.length ∧ t = loadAddress s) ∨
    (s.image.length ≤ s.pageAddr ∧ pageDone (leavePage s) = .next t) := by
  unfold pageNext at h
  split at h
  · exact .inr ⟨‹_›, h⟩
  · cases h; exact .inl ⟨by omega, rfl⟩

/-- R185, R200: Verify begins with its first page, or ends at once on an empty image. -/
theorem beginVerify_cases {s t : State} (h : beginVerify s = .next t) :
    (0 < s.image.length ∧ t = loadAddress (rewindCursor (enterStep .verify s))) ∨
    (s.image.length = 0 ∧ t = verifyPassed (rewindCursor (enterStep .verify s))) := by
  rcases pageNext_cases h with ⟨hl, rfl⟩ | ⟨hl, h⟩
  · exact .inl ⟨by simpa using hl, rfl⟩
  · cases h; exact .inr ⟨by simpa using hl, rfl⟩

/-- R185, R200: Upload begins with its first page; on an empty image the flash goes on to
EXIT_PROGMODE. -/
theorem beginUpload_cases {s t : State} (h : beginUpload s = .next t) :
    (0 < s.image.length ∧ t = loadAddress (rewindCursor (enterStep .upload s))) ∨
    (s.image.length = 0 ∧ t = verifyPassed (rewindCursor (enterStep .verify (stepSucceeded
      (leavePage (rewindCursor (enterStep .upload s))))))) := by
  rcases pageNext_cases h with ⟨hl, rfl⟩ | ⟨hl, h⟩
  · exact .inl ⟨by simpa using hl, rfl⟩
  · rcases beginVerify_cases h with ⟨hl', _⟩ | ⟨_, rfl⟩
    · simp at hl hl'; simp [hl] at hl'
    · exact .inr ⟨by simpa using hl, rfl⟩

/-- R192: the end of a step: the next step's first command, or the end of the flash. -/
theorem stepOk_cases {s t : State} (h : stepOk s = .next t) :
    (s.flashStep = .sync1 ∧ t = syncBegin (enterStep .sync2 (stepSucceeded s))) ∨
    (s.flashStep = .sync2 ∧ t = syncBegin (enterStep .sync3 (stepSucceeded s))) ∨
    (s.flashStep = .sync3 ∧ t = issueReadSign (enterStep .signature (stepSucceeded s))) ∨
    (s.flashStep = .signature ∧
      t = issueSetDevice s.profile.devparams (enterStep .setOptions (stepSucceeded s))) ∨
    (s.flashStep = .setOptions ∧ t = issueEnterProgmode (enterStep .enterProgmode (stepSucceeded s))) ∨
    (s.flashStep = .enterProgmode ∧ 0 < s.image.length ∧
      t = loadAddress (rewindCursor (enterStep .upload (stepSucceeded s)))) ∨
    (s.flashStep = .enterProgmode ∧ s.image.length = 0 ∧
      t = verifyPassed (rewindCursor (enterStep .verify (stepSucceeded (leavePage (rewindCursor
        (enterStep .upload (stepSucceeded s)))))))) ∨
    (s.flashStep = .upload ∧ 0 < s.image.length ∧
      t = loadAddress (rewindCursor (enterStep .verify (stepSucceeded s)))) ∨
    (s.flashStep = .upload ∧ s.image.length = 0 ∧
      t = verifyPassed (rewindCursor (enterStep .verify (stepSucceeded s)))) ∨
    (s.flashStep = .verify ∧ t = beginExitProgmode (stepSucceeded s)) ∨
    (s.flashStep = .exitProgmode ∧ t = finish (.ok (.flag true)) (stepSucceeded s)) := by
  unfold stepOk at h
  cases hs : s.flashStep <;> simp only [hs, beginStep] at h
  case none => cases h
  case enterProgmode =>
    have := beginUpload_cases h
    simp only [stepSucceeded_image] at this
    simp only [reduceCtorEq, false_and, true_and, or_false, false_or]
    exact this
  case upload =>
    have := beginVerify_cases h
    simp only [stepSucceeded_image] at this
    simp only [reduceCtorEq, false_and, true_and, or_false, false_or]
    exact this
  all_goals
    cases h
    simp

/-! ### A command's result -/

/-- R183: a failed command: a retry of Sync, or the end of the operation. -/
theorem seqOnCmd_err_cases {e : Err} {s t : State} (h : seqOnCmd (.err e) s = .next t) :
    (s.mode = .cmdOp ∧ t = finish (.err e) s) ∨
    ((s.mode = .syncOp ∨ (s.mode = .flash ∧ s.flashStep.isSync = true)) ∧ s.syncTry < syncBudget s ∧
      t = issueGetSync (nextAttempt (attemptFailed e s))) ∨
    (s.mode = .syncOp ∧ syncBudget s ≤ s.syncTry ∧
      t = finish (.err (.syncExhausted (syncBudget s) e)) (attemptFailed e s)) ∨
    (s.mode = .flash ∧ s.flashStep.isSync = true ∧ syncBudget s ≤ s.syncTry ∧
      t = stepFail (.syncExhausted (syncBudget s) e) (attemptFailed e s)) ∨
    (s.mode = .flash ∧ s.flashStep.isSync = false ∧ s.flashStep ≠ .none ∧ t = stepFail e s) := by
  unfold seqOnCmd at h
  cases hm : s.mode <;> simp only [hm] at h
  case idle => cases h
  case cmdOp => cases h; simp
  case syncOp =>
    simp only [syncOnResult, syncDone, attemptFailed_mode, hm, if_true] at h
    split at h <;> cases h <;> simp <;> omega
  case flash =>
    cases hs : s.flashStep <;>
      simp only [hs, syncOnResult, syncDone, attemptFailed_mode, hm, reduceCtorEq, if_false, onSignature,
        onSimple, onExit, pageOnCmd, pageFail] at h
    all_goals first
      | (cases h; simp [FlashStep.isSync])
      | (split at h <;> cases h <;> simp [FlashStep.isSync] <;> omega)

/-- R183: a successful command: the end of a lower-level operation, the end of a step, or the next
position of the page loop. -/
theorem seqOnCmd_ok_cases {buf : Bytes} {s t : State} (h : seqOnCmd (.ok buf) s = .next t) :
    ((s.mode = .cmdOp ∨ s.mode = .syncOp) ∧ t = finish (.ok (.bytes buf)) s) ∨
    (s.mode = .flash ∧ s.flashStep.isPaged = false ∧ s.flashStep ≠ .signature ∧ stepOk s = .next t) ∨
    (s.mode = .flash ∧ s.flashStep = .signature ∧ stepOk (keepSignature buf s) = .next t) ∨
    (s.mode = .flash ∧ s.flashStep = .upload ∧ s.pg = .loadAddr ∧ t = programPage (fetchSlice s)) ∨
    (s.mode = .flash ∧ s.flashStep = .verify ∧ s.pg = .loadAddr ∧ t = readPage (fetchSlice s)) ∨
    (s.mode = .flash ∧ s.flashStep = .upload ∧ s.pg = .pageCmd ∧ t = advance s) ∨
    (s.mode = .flash ∧ s.flashStep = .verify ∧ s.pg = .pageCmd ∧ verifyOk s.params buf s.slice = true ∧
      t = advance s) ∨
    (s.mode = .flash ∧ s.flashStep = .verify ∧ s.pg = .pageCmd ∧ verifyOk s.params buf s.slice = false ∧
      t = stepFail (.mismatch s.frame (verifyExpected s.params.k s.slice) buf) s) := by
  unfold seqOnCmd at h
  cases hm : s.mode <;> simp only [hm] at h
  case idle => cases h
  case cmdOp => cases h; simp
  case syncOp => simp only [syncOnResult, syncDone, hm, if_true] at h; cases h; simp
  case flash =>
    cases hs : s.flashStep <;>
      simp only [hs, syncOnResult, syncDone, hm, reduceCtorEq, if_false, onSignature, onSimple, onExit,
        pageOnCmd] at h
    case upload =>
      cases hp : s.pg <;> simp only [hp, pageAddressed, pageTransferred, hs, if_true, reduceCtorEq,
        false_and, if_false] at h <;> cases h <;> simp [FlashStep.isPaged]
    case verify =>
      cases hp : s.pg <;> simp only [hp, pageAddressed, pageTransferred, hs, reduceCtorEq,
        true_and, if_false, pageFail] at h
      case loadAddr => cases h; simp [FlashStep.isPaged]
      case pageCmd =>
        split at h <;> cases h <;> simp_all [FlashStep.isPaged]
    all_goals simp [FlashStep.isPaged, h]

/-- R209 to R211: a TICK of the settle delay: it only counts, or the next page begins, or the loop
ends. -/
theorem settleTick_cases {s t : State} (h : settleTick s = .next t) :
    (s.settle + 1 < Config.settleTicks ∧ t = countSettle s) ∨
    (Config.settleTicks ≤ s.settle + 1 ∧ s.pageAddr < s.image.length ∧
      t = loadAddress (leavePage (countSettle s))) ∨
    (Config.settleTicks ≤ s.settle + 1 ∧ s.image.length ≤ s.pageAddr ∧
      stepOk (leavePage (leavePage (countSettle s))) = .next t) := by
  unfold settleTick settleDone at h
  split at h
  · rcases pageNext_cases h with ⟨hl, rfl⟩ | ⟨hl, h⟩
    · exact .inr (.inl ⟨‹_›, by simpa using hl, rfl⟩)
    · exact .inr (.inr ⟨‹_›, by simpa using hl, h⟩)
  · cases h; exact .inl ⟨by omega, rfl⟩

end Sys2Proof.Machine
end

