-- ==== Sys2Proof/Laws/Events.lean ====
section
/-!
SUPPORT. What each instruction can do, said once: the next states of `exec`, given by the sequencer's
answer to a command's result or by a named operation.
-/

namespace Sys2Proof.Machine

/-- R98: an instruction has a next state only where it is enabled. -/
theorem whenEnabled_next {i : Instr} {s t : State} {f : State → Res} :
    whenEnabled i s f = .next t ↔ enabled i s = true ∧ f s = .next t := by
  unfold whenEnabled
  split <;> simp [*]

/-- R116, R145, R147: the end of a receive hands the checked result to the sequencer. -/
theorem rxFinish_eq (r : Reply) (s : State) :
    rxFinish r s = seqOnCmd (checkReply s.req s.frame r) (commandOver (receiverOff s)) := rfl

/-- R111: CHUNK: the receive overflows, completes or goes on. -/
theorem execChunk_cases {c : Bytes} {s t : State} (h : exec (.chunk c) s = .next t) :
    s.rxPend = true ∧
    ((s.rxExp < (acceptChunk c s).rxBuf.length ∧
        rxFinish (.err (.overflow none (acceptChunk c s).rxBuf.length s.rxExp))
          (forgetBuffer (acceptChunk c s)) = .next t) ∨
      ((acceptChunk c s).rxBuf.length = s.rxExp ∧
        rxFinish (.ok (acceptChunk c s).rxBuf) (acceptChunk c s) = .next t) ∨
      ((acceptChunk c s).rxBuf.length < s.rxExp ∧ t = continueRead (acceptChunk c s))) := by
  simp only [exec, execChunk, whenEnabled_next, enabled] at h
  refine ⟨h.1, ?_⟩
  replace h := h.2
  unfold compareLength at h
  split at h
  · exact .inl ⟨‹_›, h⟩
  · rename_i hle
    split at h
    · exact .inr (.inl ⟨‹_›, h⟩)
    · rename_i hne
      cases h
      exact .inr (.inr ⟨Nat.lt_of_le_of_ne (Nat.le_of_not_lt hle) hne, rfl⟩)

/-- R117: EOS ends the receive. -/
theorem execEos_cases {s t : State} (h : exec .eos s = .next t) :
    s.rxPend = true ∧ rxFinish (eosReply s) (readOver s) = .next t := by
  simpa only [exec, execEos, whenEnabled_next, enabled] using h

/-- R118: READ_FAIL ends the receive. -/
theorem execReadFail_cases {x : Cause} {s t : State} (h : exec (.readFail x) s = .next t) :
    s.rxPend = true ∧ rxFinish (.err (.transport .read none x)) (readOver s) = .next t := by
  simpa only [exec, execReadFail, whenEnabled_next, enabled] using h

/-- R119, R209: TICK: the settle delay, the receive timer, or no effect. -/
theorem execTick_cases {s t : State} (h : exec .tick s = .next t) :
    (s.pg = .settle ∧ settleTick s = .next t) ∨
    (s.pg ≠ .settle ∧ s.rxActive = true ∧ 0 < s.rxTo ∧ s.rxEl + 1 < s.rxTo ∧ t = countElapsed s) ∨
    (s.pg ≠ .settle ∧ s.rxActive = true ∧ 0 < s.rxTo ∧ s.rxTo ≤ s.rxEl + 1 ∧
      rxFinish (.err (.timeout none (s.rxEl + 1)))
        (emit .readCancel (readOver (countElapsed s))) = .next t) ∨
    (s.pg ≠ .settle ∧ (s.rxActive = false ∨ s.rxTo = 0) ∧ t = s) := by
  simp only [exec, execTick, whenEnabled_next, enabled, true_and] at h
  split at h
  · exact .inl ⟨‹_›, h⟩
  · refine .inr ?_
    split at h
    · unfold timeoutTick at h
      split at h
      · cases h; exact .inr (.inr ⟨‹_›, .inr ‹_›, rfl⟩)
      · split at h
        · exact .inr (.inl ⟨‹_›, ‹_›, by omega, ‹_›, h⟩)
        · cases h; exact .inl ⟨‹_›, ‹_›, by omega, by omega, rfl⟩
    · rename_i ha
      cases h
      exact .inr (.inr ⟨‹_›, .inl (by simpa using ha), rfl⟩)

/-- R143: WACK_OK starts the receive. -/
theorem execWackOk_cases {s t : State} (h : exec .wackOk s = .next t) :
    s.tx = .writing ∧ t = rxStart (respLen s.req) s.req.timeout s := by
  simp only [exec, execWackOk, whenEnabled_next, enabled, decide_eq_true_eq] at h
  exact ⟨h.1, by cases h.2; rfl⟩

/-- R144: WACK_FAIL fails the command. -/
theorem execWackFail_cases {x : Cause} {s t : State} (h : exec (.wackFail x) s = .next t) :
    s.tx = .writing ∧
      seqOnCmd (.err (.transport .write (some s.frame) x)) (commandOver s) = .next t := by
  simpa only [exec, execWackFail, whenEnabled_next, enabled, decide_eq_true_eq, cmdComplete] using h

/-- R180: START_FLASH. -/
theorem execStartFlash_cases {img : Bytes} {prof : Profile} {opts : Options} {s t : State}
    (h : exec (.startFlash img prof opts) s = .next t) :
    s.mode = .idle ∧ prof.wf = true ∧
      t = syncBegin (enterStep .sync1 (openSession img prof opts s)) := by
  simp only [exec, execStartFlash] at h
  split at h
  · simp only [whenEnabled_next, enabled, decide_eq_true_eq, beginStep] at h
    exact ⟨h.1, ‹_›, by cases h.2; rfl⟩
  · cases h

/-- R181: START_SYNC. -/
theorem execStartSync_cases {a b : Nat} {s t : State} (h : exec (.startSync a b) s = .next t) :
    s.mode = .idle ∧ t = syncBegin (openSync a b s) := by
  simp only [exec, execStartSync, whenEnabled_next, enabled, decide_eq_true_eq] at h
  exact ⟨h.1, by cases h.2; rfl⟩

/-- R182: START_COMMAND. -/
theorem execStartCommand_cases {q : Request} {s t : State} (h : exec (.startCommand q) s = .next t) :
    s.mode = .idle ∧ t = cmdIssue q (openCommand s) := by
  simp only [exec, execStartCommand, whenEnabled_next, enabled, decide_eq_true_eq] at h
  exact ⟨h.1, by cases h.2; rfl⟩

/-- R140: a wire command's next state is the issue of some request. -/
theorem execCommand_cases {i : Instr} {k : KTable} {s t : State} (hi : (i.wireParts k).isSome)
    (h : exec i s = .next t) : canIssue s = true ∧ ∃ q, t = cmdIssue q s := by
  cases i <;> simp only [Instr.wireParts, Option.isSome_none, Option.isSome_some] at hi <;>
    simp only [exec, execGetSync, execReadSign, execSetDevice, execEnterProgmode, execLeaveProgmode,
      execLoadAddress, execProgPage, execReadPage] at h
  case setDevice =>
    split at h
    · rw [whenEnabled_next] at h
      exact ⟨h.1, _, by cases h.2; rfl⟩
    · cases h
  all_goals first
    | contradiction
    | (rw [whenEnabled_next] at h; exact ⟨h.1, _, by cases h.2; rfl⟩)

/-- R30, R140: in no quiescent state may a command be issued from the port: a command is in flight, or
no operation runs, or the settle delay is waited out (log entry 3). -/
theorem canIssue_of_controlOk {s : State} (h : ControlOk s) : canIssue s = false := by
  unfold ControlOk at h
  unfold canIssue
  revert h
  cases s.mode <;> cases s.pg <;> cases s.tx <;> simp [controlListed]

/-- R30: the control state of a command in flight is also one of a command being written. -/
theorem controlListed_writing {s : State} (h : ControlOk s) (ht : s.tx ≠ .idle) :
    controlListed s.mode s.flashStep s.pg .writing = true := by
  unfold ControlOk at h
  revert h ht
  cases s.mode <;> cases s.pg <;> cases s.tx <;> simp [controlListed]

/-- R112: a scan that leaves the receiver synchronized keeps bytes that begin with the marker. -/
theorem scan_marker {sof : Byte} {c : Bytes} (h : (scan sof false c).1 = true) :
    (scan sof false c).2.head? = some sof := by
  unfold scan at *
  simp only [Bool.false_eq_true, if_false] at *
  split at h
  · simp at h
  · have hd := List.head?_dropWhile_not (fun b => b != sof) c
    simp_all

/-- R10: a step with a next state consumed a decoded record and ran its instruction. -/
theorem step_cases {s t : State} (h : step s = .next t) :
    s.params.k.wf = true ∧
      ∃ i rest, decode s.inq = .ok (i, rest) ∧ exec i (consumed rest s) = .next t := by
  unfold step fetch at h
  split at h
  · refine ⟨‹_›, ?_⟩
    split at h
    · cases h
    · exact ⟨_, _, ‹_›, h⟩
  · cases h

end Sys2Proof.Machine
end

