-- ==== Sys2Proof/Laws/Memory.lean ====
section
/-!
SUPPORT. The image space of spec/20_memory.md R60 and the slices of spec/44_paged_transfer.md R203, R204:
its cells are in canonical form, a slice stays inside the image, and no operation writes it.
-/

namespace Sys2Proof.Machine

/-- Every cell listed from address `a` on has an address of at least `a`. -/
theorem le_of_mem_imageCellsFrom {img : Bytes} {a : Nat} {c : Host.Cell}
    (h : c ∈ imageCellsFrom a img) : a ≤ c.1 := by
  induction img generalizing a with
  | nil => cases h
  | cons b r ih =>
    rcases List.mem_cons.mp h with rfl | h
    · exact le_rfl
    · exact Nat.le_of_succ_le (ih h)

/-- R60: the cells of an image are in canonical form. -/
theorem imageCellsFrom_wf (a : Nat) (img : Bytes) : Memory.wf (imageCellsFrom a img) = true := by
  induction img generalizing a with
  | nil => rfl
  | cons b r ih =>
    have h := ih (a + 1)
    simp only [Memory.wf, decide_eq_true_eq, imageCellsFrom, List.map_cons, List.pairwise_cons] at h ⊢
    refine ⟨fun x hx => ?_, h⟩
    obtain ⟨c, hc, hx⟩ := List.mem_map.mp hx
    exact hx ▸ le_of_mem_imageCellsFrom hc

/-- R60: the image space of every state is in canonical form. -/
theorem image_wf (s : State) : Memory.wf (imageCells s.image) = true := imageCellsFrom_wf 0 s.image

/-- R48: the image space lists nothing at reset. -/
theorem reset_image : imageCells State.reset.image = [] := rfl

/-- R60: a cell is listed exactly where the image has the byte. -/
theorem mem_imageCellsFrom {img : Bytes} {a x : Nat} {b : Byte} :
    (a + x, b) ∈ imageCellsFrom a img ↔ readImageByte img x = some b := by
  induction img generalizing a x with
  | nil => simp [imageCellsFrom, readImageByte]
  | cons c r ih =>
    cases x with
    | zero =>
      simp only [imageCellsFrom, readImageByte, Nat.add_zero, List.mem_cons, Prod.mk.injEq, true_and,
        List.getElem?_cons_zero, Option.some.injEq]
      constructor
      · rintro (rfl | h)
        · rfl
        · exact absurd (le_of_mem_imageCellsFrom h) (by simp)
      · rintro rfl; exact .inl rfl
    | succ x =>
      have h := @ih (a + 1) x
      rw [Nat.add_assoc, Nat.add_comm 1 x] at h
      simp only [imageCellsFrom, List.mem_cons, Prod.mk.injEq, h, readImageByte,
        List.getElem?_cons_succ]
      constructor
      · rintro (⟨h0, -⟩ | h)
        · omega
        · exact h
      · exact .inr

/-- R9: how many bytes a read gives. -/
theorem memRead_length (img : Bytes) (a n : Nat) : (memRead img a n).length = min n (img.length - a) := by
  simp [memRead]

/-- R9: the byte a read gives at an index. -/
theorem memRead_getElem? (img : Bytes) (a n x : Nat) (h : x < n) :
    (memRead img a n)[x]? = readImageByte img (a + x) := by
  simp [memRead, readImageByte, h]

/-- R204: the clipped end of a slice that starts inside the image is not before its start. -/
theorem le_clipEnd (rule : ClipRule) {l p a : Nat} (h : a < l) : a ≤ clipEnd rule l p a := by
  cases rule <;> simp only [clipEnd]
  · split <;> omega
  · omega

/-- R204: the clipped end of a slice that starts inside the image is not beyond the image. -/
theorem clipEnd_le (rule : ClipRule) {l p a : Nat} (h : a < l) : clipEnd rule l p a ≤ l := by
  cases rule <;> simp only [clipEnd]
  · split <;> omega
  · omega

/-- R204: a slice is at most a page long. -/
theorem clipEnd_le_page (rule : ClipRule) (l p a : Nat) : clipEnd rule l p a ≤ a + p := by
  cases rule <;> simp only [clipEnd]
  · split <;> omega
  · omega

/-- R203: the length of the current slice. -/
theorem currentSlice_length (s : State) (h : s.pageAddr < s.image.length) :
    (currentSlice s).length =
      clipEnd s.params.clipRule s.image.length s.profile.p s.pageAddr - s.pageAddr := by
  have h1 := clipEnd_le s.params.clipRule (p := s.profile.p) h
  rw [currentSlice, memRead_length]
  omega

end Sys2Proof.Machine
end

