-- ==== Sys2Proof/Laws/PerInstr.lean ====
section
/-!
SUPPORT. Per-instruction facts about the port encoding: the first byte of every instruction's record is
the code that spec/opcode_table.json gives its row (R96, R100), and no other row has it.
-/

namespace Sys2Proof.Laws.TableCode

/-- The constructor an instruction's code stands for, by number. -/
def rowOf : Byte → Option Nat
  | 0x30 => some 0
  | 0x75 => some 1
  | 0x42 => some 2
  | 0x50 => some 3
  | 0x51 => some 4
  | 0x55 => some 5
  | 0x64 => some 6
  | 0x74 => some 7
  | 0x00 => some 8
  | 0x01 => some 9
  | 0x02 => some 10
  | 0x03 => some 11
  | 0x04 => some 12
  | 0x05 => some 13
  | 0x08 => some 14
  | 0x09 => some 15
  | 0x0A => some 16
  | _ => none

/-- The record begins with the row's code; the code names the instruction's own row; and a wire command's
frame under `K_REF` begins with it too. -/
def Statement (i : Instr) : Prop :=
  (encode i).head? = some i.tableCode ∧ rowOf i.tableCode = some i.ctorIdx ∧
    ∀ f, encodeFrame Config.kRef i = some f → f.head? = some i.tableCode

/-- A frame begins with the code where the opcode of the wire command is the code. -/
theorem frame_code {i : Instr}
    (h : ((i.wireParts Config.kRef).map fun x => x.1 == i.tableCode).getD true = true) :
    ∀ f, encodeFrame Config.kRef i = some f → f.head? = some i.tableCode := by
  intro f hf
  unfold encodeFrame at hf
  split at hf
  · cases hf
  · rename_i op payload hw
    cases hf
    rw [hw] at h
    simpa using h

theorem getSync : Statement .getSync := ⟨rfl, rfl, frame_code rfl⟩
theorem readSign : Statement .readSign := ⟨rfl, rfl, frame_code rfl⟩
theorem setDevice (d : Bytes) : Statement (.setDevice d) := ⟨rfl, rfl, frame_code rfl⟩
theorem enterProgmode : Statement .enterProgmode := ⟨rfl, rfl, frame_code rfl⟩
theorem leaveProgmode : Statement .leaveProgmode := ⟨rfl, rfl, frame_code rfl⟩
theorem loadAddress (w : Nat) : Statement (.loadAddress w) := ⟨rfl, rfl, frame_code rfl⟩
theorem progPage (d : Bytes) : Statement (.progPage d) := ⟨rfl, rfl, frame_code rfl⟩
theorem readPage (c : Nat) : Statement (.readPage c) := ⟨rfl, rfl, frame_code rfl⟩
theorem tick : Statement .tick := ⟨rfl, rfl, frame_code rfl⟩
theorem chunk (c : Bytes) : Statement (.chunk c) := ⟨rfl, rfl, frame_code rfl⟩
theorem eos : Statement .eos := ⟨rfl, rfl, frame_code rfl⟩
theorem readFail (x : Cause) : Statement (.readFail x) := ⟨rfl, rfl, frame_code rfl⟩
theorem wackOk : Statement .wackOk := ⟨rfl, rfl, frame_code rfl⟩
theorem wackFail (x : Cause) : Statement (.wackFail x) := ⟨rfl, rfl, frame_code rfl⟩
theorem startFlash (img : Bytes) (p : Profile) (o : Options) : Statement (.startFlash img p o) := ⟨rfl, rfl, frame_code rfl⟩
theorem startSync (a t : Nat) : Statement (.startSync a t) := ⟨rfl, rfl, frame_code rfl⟩
theorem startCommand (q : Request) : Statement (.startCommand q) := ⟨rfl, rfl, frame_code rfl⟩

end Sys2Proof.Laws.TableCode
end

