-- ==== Sys2Proof/Tests/Slice0.lean ====
section
/-!
SUPPORT. The model's own tests: the well-formedness checks, every constructor's decoding from words
written out from spec/30_encoding.md, one-step tests with the expected values of spec/95_test_vectors.md,
and for every obligation with hypotheses a state and operands that meet all of them.
-/

namespace Sys2Proof.Tests

open Sys2Proof Sys2Proof.Machine

/-! ### Helpers -/

/-- Whether an outcome is a next state with a property. -/
def gives (r : Res) (p : State → Bool) : Bool :=
  match r with
  | .next t => p t
  | .fault _ => false
  | .refused _ => false

/-- Whether an outcome is a refusal for a reason. -/
def refusedFor (r : Res) (why : Refusal) : Bool :=
  match r with
  | .next _ => false
  | .fault _ => false
  | .refused x => decide (x = why)

/-- Whether bytes decode to an instruction with nothing left. -/
def decodesTo (bs : Bytes) (i : Instr) : Bool :=
  match decode bs with
  | .ok x => decide (x = (i, []))
  | .error _ => false

/-- Whether a frame decodes to a wire command under `K_REF` with nothing left. -/
def frameIs (bs : Bytes) (i : Instr) : Bool :=
  match decodeFrame Config.kRef bs with
  | .ok x => decide (x = (i, []))
  | .error _ => false

/-- Twenty zero bytes. -/
def zeros20 : Bytes := List.replicate 20 0

/-- A profile with page size 2 and a three-byte signature. -/
def prof2 : Profile := { sig := [0x1E, 0x95, 0x0F], p := 2, devparams := zeros20 }

/-- The options of a flash with the given attempts and timeout. -/
def opt (a t : Nat) (d : Bool) : Options := { attempts := a, timeout := t, debug := d }

/-- A request for the OK acknowledgment. -/
def okReq (t : Nat) : Request :=
  exactRequest 0x30 [] [0x14, 0x10] t

/-- The point of a single command at which a command is issued. -/
def issuing : State := { State.reset with mode := .cmdOp, profile := prof2, timeout := 50 }

/-- A single command whose WRITE awaits its acknowledgment. -/
def writing (q : Request) : State :=
  { State.reset with mode := .cmdOp, tx := .writing, req := q, frame := [0x30, 0x20] }

/-- A single command that awaits `n` bytes with timeout `t`; nothing has come yet. -/
def receiving (q : Request) (n t : Nat) : State :=
  { writing q with tx := .receiving, rxActive := true, rxPend := true, rxExp := n, rxTo := t }

/-- A single command that awaits `n` bytes, any content. -/
def lengthOnly (n t : Nat) : State := receiving (lengthOnlyRequest 0x75 [] n t) n t

/-- A flash at a step, no command in flight. -/
def atStep (st : FlashStep) (pg : Pg) : State :=
  { State.reset with
    mode := .flash, flashStep := st, pg := pg, profile := prof2, image := [0x0C, 0x94, 0x34]
    attempts := 2, timeout := 10, syncTry := 1 }

/-- A settle delay with `n` ticks counted, at cursor `a`. -/
def settling (st : FlashStep) (n a : Nat) : State :=
  { atStep st .settle with settle := n, pageAddr := a }

/-! ### Well-formedness: an ill-formed term for each check -/

theorem test_wf_setDevice_19 : Instr.wf (.setDevice (List.replicate 19 0)) = false := by decide
theorem test_wf_setDevice_21 : Instr.wf (.setDevice (List.replicate 21 0)) = false := by decide
theorem test_wf_loadAddress_wide : Instr.wf (.loadAddress 0x10000) = false := by decide
theorem test_wf_readPage_wide : Instr.wf (.readPage 0x10000) = false := by decide
theorem test_wf_progPage_long (d : Bytes) (h : d.length = 0x10000) : Instr.wf (.progPage d) = false := by
  simp [Instr.wf, h]
theorem test_wf_startFlash_params :
    Instr.wf (.startFlash [] { prof2 with devparams := [] } (opt 1 1 false)) = false := by decide
theorem test_wf_setDevice_20 : Instr.wf (.setDevice zeros20) = true := by decide

/-! ### Decoding: frames of 95_test_vectors CM-1 to CM-13, tags of R96 -/

theorem test_frame_getSync : frameIs [0x30, 0x20] .getSync = true := by decide
theorem test_frame_readSign : frameIs [0x75, 0x20] .readSign = true := by decide
theorem test_frame_setDevice : frameIs
    [0x42, 0x86, 0x00, 0x00, 0x01, 0x01, 0x01, 0x01, 0x03, 0xFF, 0xFF, 0xFF, 0xFF, 0x00, 0x80, 0x04,
      0x00, 0x00, 0x00, 0x80, 0x00, 0x20]
    (.setDevice [0x86, 0x00, 0x00, 0x01, 0x01, 0x01, 0x01, 0x03, 0xFF, 0xFF, 0xFF, 0xFF, 0x00, 0x80,
      0x04, 0x00, 0x00, 0x00, 0x80, 0x00]) = true := by decide
theorem test_frame_enterProgmode : frameIs [0x50, 0x20] .enterProgmode = true := by decide
theorem test_frame_leaveProgmode : frameIs [0x51, 0x20] .leaveProgmode = true := by decide
theorem test_frame_loadAddress : frameIs [0x55, 0x34, 0x12, 0x20] (.loadAddress 0x1234) = true := by decide
theorem test_frame_progPage : frameIs [0x64, 0x00, 0x04, 0x46, 0x0C, 0x94, 0x34, 0x00, 0x20]
    (.progPage [0x0C, 0x94, 0x34, 0x00]) = true := by decide
theorem test_frame_readPage : frameIs [0x74, 0x00, 0x80, 0x46, 0x20] (.readPage 128) = true := by decide
theorem test_frame_unknown : frameIs [0x15, 0x20] .getSync = false := by decide

theorem test_tag_tick : decodesTo [0x00] .tick = true := by decide
theorem test_tag_chunk : decodesTo [0x01, 0x02, 0x14, 0x10] (.chunk [0x14, 0x10]) = true := by decide
theorem test_tag_eos : decodesTo [0x02] .eos = true := by decide
theorem test_tag_readFail : decodesTo [0x03, 0x07] (.readFail ⟨7⟩) = true := by decide
theorem test_tag_wackOk : decodesTo [0x04] .wackOk = true := by decide
theorem test_tag_wackFail : decodesTo [0x05, 0x07] (.wackFail ⟨7⟩) = true := by decide
theorem test_tag_startFlash : decodesTo
    ([0x08, 0x01, 0xAA, 0x03, 0x1E, 0x95, 0x0F, 0x02] ++ zeros20 ++ [0x03, 0x32, 0x00])
    (.startFlash [0xAA] prof2 (opt 3 50 false)) = true := by decide
theorem test_tag_startSync : decodesTo [0x09, 0x01, 0x0A] (.startSync 1 10) = true := by decide
theorem test_tag_startCommand : decodesTo
    [0x0A, 0x00, 0x30, 0x00, 0x00, 0x00, 0x01, 0x02, 0x14, 0x10, 0x00, 0x05]
    (.startCommand (okReq 5)) = true := by decide
theorem test_tag_command : decodesTo [0x55, 0x34, 0x12] (.loadAddress 0x1234) = true := by decide

/-! ### The opcode table's words run as the first step after reset -/

/-- Whether the table word `w` is decoded, and run by the very next step after reset. -/
def runsFirst (w : Nat) : Bool :=
  (decodeTableWord 8 w).isSome && gives (step (State.reset.withFetchWord 8 w)) fun _ => true

theorem test_first_commands :
    (runsFirst 0x30 && runsFirst 0x75 && runsFirst 0x42 && runsFirst 0x50 && runsFirst 0x51 &&
      runsFirst 0x55 && runsFirst 0x64 && runsFirst 0x74) = true := by decide
theorem test_first_events :
    (runsFirst 0x0 && runsFirst 0x1 && runsFirst 0x2 && runsFirst 0x3 && runsFirst 0x4 &&
      runsFirst 0x5 && runsFirst 0x8 && runsFirst 0x9 && runsFirst 0xA) = true := by decide
theorem test_first_reserved : decodeTableWord 8 0x7 = none := by decide

/-! ### One step: wire commands (CM-1 to CM-13) -/

theorem test_getSync : gives (exec .getSync issuing) (fun t =>
    t.outs == [.write [0x30, 0x20]] && t.req.expBytes == some [0x14, 0x10]) = true := by decide
theorem test_readSign : gives (exec .readSign issuing) (fun t =>
    t.outs == [.write [0x75, 0x20]] && respLen t.req == 5 && t.req.expBytes == none) = true := by decide
theorem test_setDevice : gives (exec (.setDevice zeros20) issuing) (fun t =>
    t.outs == [.write ([0x42] ++ zeros20 ++ [0x20])] && respLen t.req == 2) = true := by decide
theorem test_enterProgmode : gives (exec .enterProgmode issuing) (fun t =>
    t.outs == [.write [0x50, 0x20]] && t.tx == .writing) = true := by decide
theorem test_leaveProgmode : gives (exec .leaveProgmode issuing) (fun t =>
    t.outs == [.write [0x51, 0x20]] && t.req.timeout == 50) = true := by decide
theorem test_loadAddress : gives (exec (.loadAddress 0x3FC0) issuing) (fun t =>
    t.outs == [.write [0x55, 0xC0, 0x3F, 0x20]]) = true := by decide
theorem test_loadAddress_truncated : gives (exec (.loadAddress 0x10000) issuing) (fun t =>
    t.outs == [.write [0x55, 0x00, 0x00, 0x20]]) = true := by decide
theorem test_progPage : gives (exec (.progPage [0x0C, 0x94, 0x34, 0x00]) issuing) (fun t =>
    t.outs == [.write [0x64, 0x00, 0x04, 0x46, 0x0C, 0x94, 0x34, 0x00, 0x20]]) = true := by decide
theorem test_progPage_empty : gives (exec (.progPage []) issuing) (fun t =>
    t.outs == [.write [0x64, 0x00, 0x00, 0x46, 0x20]]) = true := by decide
theorem test_readPage : gives (exec (.readPage 128) { issuing with slice := [1, 2, 3, 4, 5] }) (fun t =>
    t.outs == [.write [0x74, 0x00, 0x80, 0x46, 0x20]] && respLen t.req == 7) = true := by decide

/-! ### One step: events (RX, TX, TM and TR vectors) -/

theorem test_chunk_prefix : gives (exec (.chunk [0x00, 0x14, 0x10]) (lengthOnly 2 0)) (fun t =>
    t.result == some (.ok (.bytes [0x14, 0x10]))) = true := by decide
theorem test_chunk_overflow : gives (exec (.chunk [0x14, 0x10, 0x14]) (lengthOnly 2 0)) (fun t =>
    t.result == some (.err (.overflow (some [0x30, 0x20]) 3 2))) = true := by decide
theorem test_eos_short : gives (exec .eos { lengthOnly 5 0 with rxSynced := true, rxBuf := [0x14, 0x1E] })
    (fun t => t.result == some (.ok (.bytes [0x14, 0x1E]))) = true := by decide
theorem test_eos_error : gives (exec .eos { lengthOnly 5 0 with
      params := { Config.defaultParams with eosMode := .error }, rxSynced := true, rxBuf := [0x14, 0x1E] })
    (fun t => t.result == some (.err (.incomplete (some [0x30, 0x20]) 2 5))) = true := by decide
theorem test_readFail : gives (exec (.readFail ⟨9⟩) (lengthOnly 2 0)) (fun t =>
    t.result == some (.err (.transport .read (some [0x30, 0x20]) ⟨9⟩)) && !t.rxPend) = true := by decide
theorem test_tick_timeout : gives (exec .tick { lengthOnly 2 3 with rxEl := 2 }) (fun t =>
    t.outs == [.readCancel, .opDone (.err (.timeout (some [0x30, 0x20]) 3))]) = true := by decide
theorem test_tick_settle : gives (exec .tick (settling .upload 3 2)) (fun t =>
    t.settle == 4 && t.outs == [.write [0x55, 0x01, 0x00, 0x20]]) = true := by decide
theorem test_wackOk : gives (exec .wackOk (writing { okReq 50 with expLen := some 3 })) (fun t =>
    t.rxExp == 3 && t.rxTo == 50 && t.outs == [.readReq]) = true := by decide
theorem test_wackFail : gives (exec (.wackFail ⟨9⟩) (writing (okReq 5))) (fun t =>
    t.outs == [.opDone (.err (.transport .write (some [0x30, 0x20]) ⟨9⟩))]) = true := by decide
theorem test_startFlash_trace : gives (exec (.startFlash [1] prof2 (opt 1 10 true)) State.reset) (fun t =>
    t.outs == [.trace (.stepStarted .sync1), .write [0x30, 0x20]]) = true := by decide
theorem test_startSync : gives (exec (.startSync 2 3) State.reset) (fun t =>
    t.outs == [.write [0x30, 0x20]] && t.syncTry == 1 && t.mode == .syncOp) = true := by decide
theorem test_startCommand_empty_frame :
    gives (exec (.startCommand { okReq 1 with form := .prebuilt }) State.reset) (fun t =>
      t.outs == [.write []]) = true := by decide
theorem test_verify_mismatch : gives (seqOnCmd (.ok [0x14, 0x0C, 0x95, 0x10])
      { atStep .verify .pageCmd with slice := [0x0C, 0x94], frame := [0x74, 0x00, 0x02, 0x46, 0x20] })
    (fun t => t.result == some (.err (.stepFailure .verify (.mismatch [0x74, 0x00, 0x02, 0x46, 0x20]
      [0x14, 0x0C, 0x94, 0x10] [0x14, 0x0C, 0x95, 0x10])))) = true := by decide
theorem test_clip_literal : clipEnd .literal 5 4 4 = 4 := by decide
theorem test_clip_fixed : clipEnd .fixed 5 4 4 = 5 := by decide

/-! ### Witnesses: for every obligation with hypotheses, what meets them all together -/

/-- An idle engine whose port offers a TICK. -/
def idleTick : State := { State.reset with inq := [0x00] }

/-- A flash with its first LOAD_ADDRESS of Upload written. -/
def uploading (rule : ClipRule) : State :=
  { atStep .upload .loadAddr with
    params := { Config.defaultParams with clipRule := rule }
    tx := .writing, req := loadAddressRequest 0 (atStep .upload .loadAddr)
    frame := [0x55, 0x00, 0x00, 0x20] }

/-- The last attempt of a Sync with no attempt budget, in a mode. -/
def lastTry (m : Mode) : State := { atStep .sync1 .none with mode := m, attempts := 0 }

/-- The response [14 10] to a written command. -/
def answered : List Instr := [.wackOk, .chunk [0x14, 0x10]]

/-- A whole flash of an empty image. -/
def emptyFlash : List Instr :=
  answered ++ answered ++ answered ++ [.wackOk, .chunk [0x14, 0x1E, 0x95, 0x0F, 0x10]] ++ answered ++
    answered ++ answered

theorem idle_quiescent : Quiescent idleTick where
  control := rfl
  rx := ⟨by decide, by decide, by decide, by decide, by decide, by decide, by decide⟩
  pend_active := by decide
  synced_buf := by decide

theorem receiving_quiescent : Quiescent (lengthOnly 2 3) where
  control := rfl
  rx := ⟨by decide, by decide, by decide, by decide, by decide, by decide, by decide⟩
  pend_active := by decide
  synced_buf := by decide

theorem settling_quiescent : Quiescent (settling .upload 0 2) where
  control := rfl
  rx := ⟨by decide, by decide, by decide, by decide, by decide, by decide, by decide⟩
  pend_active := by decide
  synced_buf := by decide

theorem uploading_inFlight (rule : ClipRule) : InFlightOk (uploading rule) := by
  intro _ q hq
  cases rule <;> exact Option.some.inj hq

theorem witness_ResetEnablesTickAndStartOnly :
    (Instr.tick).wf = true ∧ isStart (.startSync 0 0) = true ∧ (Instr.startSync 0 0).wf = true ∧
    (Instr.eos).wf = true ∧ Instr.eos ≠ .tick ∧ isStart .eos = false := by decide

theorem witness_StepRunsDecodedInstruction :
    (idleTick.params.k.wf = true ∧ decode idleTick.inq = .ok (.tick, [])) ∧
    (decode [0x06] = .error (.reservedTag 6) ∧ Reject.reservedTag 6 ≠ .noBytes) ∧
    State.reset.inq = [] := by decide

theorem witness_IllFormedTableHasNoStep :
    (∃ k : KTable, k.ok0 ≠ k.sof) ∧
    ∃ (k : KTable) (a b : Nat), a < b ∧ b < 8 ∧ k.opcodes[a]? = k.opcodes[b]? :=
  ⟨⟨{ Config.kRef with ok0 := 0x15 }, by decide⟩, { Config.kRef with readPage := 0x30 }, 0, 7, by decide⟩

theorem witness_ReservedTagsRefused :
    State.reset.params.k.wf = true ∧ ∃ s : State, s.inq = BitVec.ofNat 8 15 :: [0x00] :=
  ⟨by decide, { State.reset with inq := [0x0F, 0x00] }, rfl⟩

theorem witness_PortRecordRoundTrip : (Instr.loadAddress 0xFFFF).wf = true ∧
    (Instr.startFlash [1] prof2 (opt 3 50 true)).wf = true := by decide

theorem witness_TransmitStreamSplits : Config.kRef.wf = true ∧
    [Instr.getSync, .loadAddress 0xFFFF].map (encodeFrame Config.kRef) =
      [[0x30, 0x20], [0x55, 0xFF, 0xFF, 0x20]].map some ∧
    ∀ i ∈ [Instr.getSync, .loadAddress 0xFFFF], i.wf = true := by decide

theorem witness_PlainCommandsIssued : canIssue issuing = true := by decide

theorem witness_SetDeviceIssued : canIssue issuing = true ∧ zeros20.length = 20 ∧
    (List.replicate 19 (0 : Byte)).length ≠ 20 := by decide

theorem witness_LoadAddressIssued : canIssue issuing = true := by decide

theorem witness_ProgPageIssued : canIssue issuing = true := by decide

theorem witness_ReadPageIssued : canIssue issuing = true := by decide

theorem witness_CommandsWriteTheirEncoding : ∃ t,
    encodeFrame issuing.params.k .getSync = some [0x30, 0x20] ∧ exec .getSync issuing = .next t :=
  ⟨_, rfl, rfl⟩

theorem witness_MarkerScan : (0x14 : Byte) ∉ ([] : Bytes) ∧ (0x14 : Byte) ∉ [(0x10 : Byte)] := by decide

theorem witness_ChunkLeavesReceiveRunning :
    (lengthOnly 5 0).rxPend = true ∧
    (lengthOnly 5 0).rxBuf.length + (keptBytes 0x14 false [0x00, 0x14, 1, 2, 3]).length <
      (lengthOnly 5 0).rxExp := by decide

theorem witness_ResponsesReachSequencer :
    (lengthOnly 2 0).rxPend = true ∧
    [0x14, 0x10] = (lengthOnly 2 0).rxBuf ++ keptBytes 0x14 false [0x00, 0x14, 0x10] ∧
    ([0x14, 0x10] : Bytes).length = (lengthOnly 2 0).rxExp ∧
    (lengthOnly 2 0).params.eosMode = .shortBuffer := by decide

theorem witness_TransportEventsEndSingleCommand :
    (lengthOnly 2 0).mode = .cmdOp ∧ (lengthOnly 2 0).rxPend = true ∧
    (lengthOnly 2 0).params.eosMode = .shortBuffer ∧ (lengthOnly 2 0).req.expBytes = none ∧
    (receiving (okReq 0) 2 0).req.expBytes = some [0x14, 0x10] ∧
    (receiving (okReq 0) 2 0).rxBuf ≠ [0x14, 0x10] ∧
    (writing (okReq 0)).tx = .writing ∧ (writing (okReq 0)).mode = .cmdOp ∧
    ∃ s : State, s.mode = .cmdOp ∧ s.rxPend = true ∧ s.params.eosMode = .error :=
  ⟨rfl, rfl, rfl, rfl, rfl, by decide, rfl, rfl,
    { lengthOnly 2 0 with params := { Config.defaultParams with eosMode := .error } }, rfl, rfl, rfl⟩

theorem witness_TickCountsOnlyRunningTimer :
    State.reset.pg ≠ .settle ∧ State.reset.rxActive = false ∧
    (lengthOnly 2 0).pg ≠ .settle ∧ (lengthOnly 2 0).rxActive = true ∧ (lengthOnly 2 0).rxTo = 0 ∧
    (lengthOnly 2 2).rxActive = true ∧ (lengthOnly 2 2).rxEl + 1 < (lengthOnly 2 2).rxTo := by decide

theorem witness_ReceivedBytesAreFramed : ∃ t u,
    Quiescent (lengthOnly 2 3) ∧ (lengthOnly 2 3).rxPend = true ∧
    ([0x14, 0x10] : Bytes).length = (lengthOnly 2 3).rxExp ∧
    (lengthOnly 2 3).rxExp < ([0x14, 0x10, 0x10] : Bytes).length ∧
    (lengthOnly 2 3).params.eosMode = .shortBuffer ∧ (lengthOnly 2 3).mode = .cmdOp ∧
    exec (.chunk [0x00, 0x14, 0x10]) (lengthOnly 2 3) = .next t ∧
    t.result = some (.ok (.bytes [0x14, 0x10])) ∧ t.mode = .idle ∧
    exec .eos (lengthOnly 2 3) = .next u ∧ u.result = some (.ok (.bytes [])) ∧ u.mode = .idle :=
  ⟨_, _, receiving_quiescent, rfl, rfl, by decide, rfl, rfl, rfl, rfl, rfl, rfl, rfl, rfl⟩

theorem witness_ChunkSplitInvariance :
    awaitsFresh (lengthOnly 2 3) ∧ (lengthOnly 2 3).pg ≠ .settle ∧
    (lengthOnly 2 3).rxExp = ([0x14, 0x10] : Bytes).length ∧
    (lengthOnly 2 3).params.k.sof ∉ [(0x00 : Byte)] ∧
    ([0x14, 0x10] : Bytes).head? = some (lengthOnly 2 3).params.k.sof ∧
    (∀ e ∈ [Instr.chunk [0x00], .tick, .chunk [], .chunk [0x14], .tick], isDelivery e = true) ∧
    ([0x10] : Bytes) ≠ [] ∧
    receiveStream [.chunk [0x00], .tick, .chunk [], .chunk [0x14], .tick] ++ [0x10] =
      [0x00] ++ [0x14, 0x10] ∧
    (lengthOnly 2 3).rxEl + tickCount [.chunk [0x00], .tick, .chunk [], .chunk [0x14], .tick] <
      (lengthOnly 2 3).rxTo ∧
    (lengthOnly 2 0).rxTo = 0 :=
  ⟨⟨rfl, rfl, rfl, rfl, rfl⟩, by decide⟩

theorem witness_SilentReceiveTimesOut :
    awaitsFresh (lengthOnly 2 2) ∧ (lengthOnly 2 2).pg ≠ .settle ∧
    0 < (lengthOnly 2 2).rxTo ∧ (lengthOnly 2 2).rxEl = 0 ∧ 0 < (lengthOnly 2 2).rxExp ∧
    (∀ e ∈ [Instr.chunk [0x00], .tick], isSilent (lengthOnly 2 2).params.k.sof e = true) ∧
    tickCount [Instr.chunk [0x00], .tick] + 1 = (lengthOnly 2 2).rxTo :=
  ⟨⟨rfl, rfl, rfl, rfl, rfl⟩, by decide⟩

theorem witness_WackOkStartsReceive : (writing (okReq 0)).tx = .writing := by decide

theorem witness_FailuresReachSequencer :
    (writing (okReq 0)).tx = .writing ∧ (lengthOnly 2 1).rxPend = true ∧
    (lengthOnly 2 1).rxExp <
      (lengthOnly 2 1).rxBuf.length + (keptBytes 0x14 false [0x14, 0x10, 0x10]).length ∧
    (lengthOnly 2 1).pg ≠ .settle ∧ (lengthOnly 2 1).rxActive = true ∧ 0 < (lengthOnly 2 1).rxTo ∧
    (lengthOnly 2 1).rxTo ≤ (lengthOnly 2 1).rxEl + 1 ∧
    ∃ s : State, s.rxPend = true ∧ s.params.eosMode = .error :=
  ⟨rfl, rfl, by decide, by decide, rfl, by decide, by decide,
    { lengthOnly 2 0 with params := { Config.defaultParams with eosMode := .error } }, rfl, rfl⟩

theorem witness_ExactResponseMatch :
    State.reset.mode = .idle ∧ (okReq 5).expBytes = some [0x14, 0x10] ∧ (okReq 5).expLen = none ∧
    ([0x14, 0x10] : Bytes).head? = some State.reset.params.k.sof ∧
    ([0x14, 0x11] : Bytes).head? = some State.reset.params.k.sof ∧
    ([0x14, 0x11] : Bytes).length = ([0x14, 0x10] : Bytes).length ∧
    ([0x14, 0x11] : Bytes) ≠ [0x14, 0x10] := by decide

theorem witness_RequestFrames :
    (okReq 0).form = .raw ∧ (okReq 0).term = none ∧
    ({ okReq 0 with term := some 0x21 } : Request).term = some 0x21 ∧
    ({ okReq 0 with form := .prebuilt } : Request).form = .prebuilt := by decide

theorem witness_StartFlashOpensSession :
    State.reset.mode = .idle ∧ prof2.devparams.length = 20 ∧
    ({ prof2 with devparams := [] } : Profile).devparams.length ≠ 20 ∧ issuing.mode ≠ .idle := by decide

theorem witness_LowerLevelOperationsStart : State.reset.mode = .idle := by decide

theorem witness_LowerLevelResultsAreDone :
    issuing.tx = .idle ∧ issuing.mode = .cmdOp ∧
    ({ issuing with mode := .syncOp } : State).tx = .idle ∧
    ({ issuing with mode := .syncOp } : State).mode = .syncOp := by decide

theorem witness_InputsNotEnabledHaveNoStep :
    State.reset.rxPend = false ∧ State.reset.tx ≠ .writing ∧ issuing.mode ≠ .idle ∧ prof2.wf = true ∧
    (writing (okReq 0)).tx ≠ .idle ∧ (Instr.setDevice zeros20).wf = true ∧
    (encodeFrame Config.kRef (.setDevice zeros20)).isSome = true := by decide

theorem witness_EnabledInputsHaveAStep :
    Quiescent (settling .upload 0 2) ∧ (Instr.tick).wf = true ∧
    enabled .tick (settling .upload 0 2) = true :=
  ⟨settling_quiescent, rfl, rfl⟩

theorem witness_SyncRetriesThenExhausts :
    (atStep .sync1 .none).tx = .idle ∧ (atStep .sync1 .none).mode = .flash ∧
    (atStep .sync1 .none).flashStep.isSync = true ∧
    (atStep .sync1 .none).syncTry < max (atStep .sync1 .none).attempts 1 ∧
    max (lastTry .flash).attempts 1 ≤ (lastTry .flash).syncTry ∧ (lastTry .flash).mode = .flash ∧
    (lastTry .flash).flashStep.isSync = true ∧ (lastTry .flash).tx = .idle ∧
    max (lastTry .syncOp).attempts 1 ≤ (lastTry .syncOp).syncTry ∧ (lastTry .syncOp).mode = .syncOp ∧
    (lastTry .syncOp).tx = .idle := by decide

theorem witness_StepFailureAbortsFlash :
    (atStep .signature .none).tx = .idle ∧ (atStep .signature .none).mode = .flash ∧
    (atStep .signature .none).flashStep ≠ .none ∧
    (atStep .signature .none).flashStep.isSync = false := by decide

theorem witness_StepSuccessBeginsNext :
    (∀ st, (atStep st .none).tx = .idle ∧ (atStep st .none).mode = .flash ∧
      (atStep st .none).flashStep = st) ∧
    0 < (atStep .enterProgmode .none).image.length :=
  ⟨fun _ => ⟨rfl, rfl, rfl⟩, by decide⟩

theorem witness_EmptyImageSkipsPages :
    let s := { atStep .enterProgmode .none with image := [] }
    s.tx = .idle ∧ s.mode = .flash ∧ s.flashStep = .enterProgmode ∧ s.image = [] := by decide

theorem witness_AcknowledgedAddressSendsPage :
    (∀ st, (atStep st .loadAddr).tx = .idle ∧ (atStep st .loadAddr).mode = .flash ∧
      (atStep st .loadAddr).pg = .loadAddr ∧ (atStep st .loadAddr).flashStep = st ∧
      (atStep st .loadAddr).pageAddr < (atStep st .loadAddr).image.length ∧
      (atStep st .loadAddr).params.clipRule = .literal) ∧
    0 < ([0x0C, 0x94] : Bytes).length :=
  ⟨fun _ => ⟨rfl, rfl, rfl, rfl, by simp [atStep, State.reset], rfl⟩, by decide⟩

theorem witness_TransferredPageAdvancesOrFails :
    let s := { atStep .verify .pageCmd with slice := [0x0C, 0x94] }
    s.tx = .idle ∧ s.mode = .flash ∧ s.pg = .pageCmd ∧ s.flashStep = .verify ∧
    (atStep .upload .pageCmd).flashStep = .upload ∧
    verifyOk s.params [0x14, 0x0C, 0x94, 0x11] s.slice = true ∧
    verifyOk s.params [0x14, 0x0C, 0x95, 0x10] s.slice = false := by decide

theorem witness_VerifyChecksMiddleBytes :
    ([0x0C, 0x95] : Bytes).length = ([0x0C, 0x94] : Bytes).length ∧
    ([0x14, 0x0C] : Bytes).length ≠ ([0x0C, 0x94] : Bytes).length + 2 := by decide

theorem witness_SettleDelayThenNextPage :
    (settling .upload 2 2).pg = .settle ∧ (settling .upload 2 2).settle < 3 ∧
    (settling .upload 3 2).settle = 3 ∧
    (settling .upload 3 2).pageAddr < (settling .upload 3 2).image.length := by decide

theorem witness_SettleDelayThenLoopEnd :
    (settling .upload 3 3).pg = .settle ∧ (settling .upload 3 3).tx = .idle ∧
    (settling .upload 3 3).settle = 3 ∧
    (settling .upload 3 3).image.length ≤ (settling .upload 3 3).pageAddr ∧
    (settling .upload 3 3).flashStep = .upload ∧ 0 < (settling .upload 3 3).image.length ∧
    (settling .verify 3 3).flashStep = .verify := by decide

theorem witness_SettleDelayEmitsNothing : ∃ t,
    Quiescent (settling .upload 0 2) ∧ (settling .upload 0 2).pg = .settle ∧
    (settling .upload 0 2).settle + tickCount [.tick, .tick, .tick] < 4 ∧
    run [.tick, .tick, .tick] (settling .upload 0 2) = .next t :=
  ⟨_, settling_quiescent, rfl, by decide, rfl⟩

theorem witness_FixedClippingCursors : 1 ≤ 4 ∧ 1 < (5 + 4 - 1) / 4 := by decide

theorem witness_LiteralClippingNeverEnds : 1 ≤ 4 ∧ 5 % 4 ≠ 0 ∧ 5 / 4 < 2 := by decide

theorem witness_FixedUploadSendsEverySlice :
    InFlightOk (uploading .fixed) ∧ (uploading .fixed).params.k.wf = true ∧
    (uploading .fixed).params.clipRule = .fixed ∧ 1 ≤ (uploading .fixed).profile.p ∧
    0 < (uploading .fixed).image.length ∧ (uploading .fixed).mode = .flash ∧
    (uploading .fixed).flashStep = .upload ∧ (uploading .fixed).pg = .loadAddr ∧
    (uploading .fixed).tx = .writing ∧ (uploading .fixed).pageAddr = 0 ∧
    (uploading .fixed).wordAddr = 0 :=
  ⟨uploading_inFlight .fixed, by decide⟩

theorem witness_LiteralUploadNeverEnds :
    InFlightOk (uploading .literal) ∧ (uploading .literal).params.k.wf = true ∧
    (uploading .literal).params.clipRule = .literal ∧ 1 ≤ (uploading .literal).profile.p ∧
    (uploading .literal).image.length % (uploading .literal).profile.p ≠ 0 ∧
    (uploading .literal).mode = .flash ∧ (uploading .literal).flashStep = .upload ∧
    (uploading .literal).pg = .loadAddr ∧ (uploading .literal).tx = .writing ∧
    (uploading .literal).pageAddr = 0 ∧ (uploading .literal).wordAddr = 0 ∧
    (uploading .literal).image.length / (uploading .literal).profile.p < 2 :=
  ⟨uploading_inFlight .literal, by decide⟩

theorem witness_StepKeepsQuiescent : ∃ t, Quiescent idleTick ∧ step idleTick = .next t :=
  ⟨_, idle_quiescent, rfl⟩

theorem witness_StepKeepsPagesInImage : ∃ s t,
    Quiescent s ∧ PageInvariant s ∧ step s = .next t :=
  ⟨{ settling .upload 0 2 with inq := [0x00] }, _,
    ⟨rfl, ⟨by decide, by decide, by decide, by decide, by decide, by decide, by decide⟩, by decide,
      by decide⟩,
    ⟨by decide, by decide, by decide, by decide⟩, rfl⟩

theorem witness_StepKeepsCommandInFlight : ∃ s t,
    Quiescent s ∧ CommandInvariant s ∧ InFlightOk s ∧ s.tx ≠ .idle ∧ step s = .next t :=
  ⟨{ uploading .fixed with inq := [0x04] }, _,
    ⟨rfl, ⟨by decide, by decide, by decide, by decide, by decide, by decide, by decide⟩, by decide,
      by decide⟩,
    ⟨by decide, by decide, by decide⟩, fun _ _ hq => Option.some.inj hq, by decide, rfl⟩

theorem witness_StepKeepsSession : ∃ s t,
    Quiescent s ∧ SessionInvariant s ∧ s.mode = .syncOp ∧ step s = .next t :=
  ⟨{ writing (okReq 3) with mode := .syncOp, attempts := 1, syncTry := 1, inq := [0x04] }, _,
    ⟨rfl, ⟨by decide, by decide, by decide, by decide, by decide, by decide, by decide⟩, by decide,
      by decide⟩,
    ⟨by decide, by decide, by decide⟩, rfl, rfl⟩

theorem witness_InputLatchesFrame : ∃ t, exec .getSync issuing = .next t ∧
    (∀ img prof opts, Instr.getSync ≠ .startFlash img prof opts) ∧
    (∀ a n, Instr.getSync ≠ .startSync a n) ∧ isStart .getSync = false :=
  ⟨_, rfl, by simp, by simp, rfl⟩

theorem witness_ReceiverRegistersFrame : ∃ t u, exec (.wackFail ⟨1⟩) (writing (okReq 0)) = .next t ∧
    Instr.wackFail ⟨1⟩ ≠ .wackOk ∧ Instr.wackFail ⟨1⟩ ≠ .tick ∧ Instr.wackFail ⟨1⟩ ≠ .eos ∧
    (∀ c, Instr.wackFail ⟨1⟩ ≠ .chunk c) ∧ (∀ x, Instr.wackFail ⟨1⟩ ≠ .readFail x) ∧
    exec .tick (lengthOnly 2 3) = .next u :=
  ⟨_, _, rfl, by decide, by decide, by decide, by simp, by simp, rfl⟩

theorem witness_SessionRegistersFrame : ∃ t u,
    Quiescent (lengthOnly 2 3) ∧ (lengthOnly 2 3).mode ≠ .flash ∧ exec .eos (lengthOnly 2 3) = .next t ∧
    (∀ img prof opts, Instr.eos ≠ .startFlash img prof opts) ∧ isStart .eos = false ∧
    Quiescent idleTick ∧ idleTick.mode ≠ .flash ∧ exec (.startSync 1 1) idleTick = .next u ∧
    (∀ img prof opts, Instr.startSync 1 1 ≠ .startFlash img prof opts) ∧
    isStart (.startSync 1 1) = true :=
  ⟨_, _, receiving_quiescent, by decide, rfl, by simp, rfl, idle_quiescent, by decide, rfl, by simp, rfl⟩

theorem witness_OneRequestPerStep : ∃ t u,
    Quiescent (lengthOnly 2 3) ∧ exec (.chunk [0x14]) (lengthOnly 2 3) = .next t ∧
      t.outs = (lengthOnly 2 3).outs ++ [.readReq] ∧
    Quiescent idleTick ∧ exec (.startSync 1 1) idleTick = .next u ∧
      u.outs = idleTick.outs ++ [.write [0x30, 0x20]] :=
  ⟨_, _, receiving_quiescent, rfl, by decide, idle_quiescent, rfl, by decide⟩

theorem witness_DoneEndsOperation : ∃ t,
    Quiescent (lengthOnly 2 3) ∧ exec .eos (lengthOnly 2 3) = .next t ∧
    t.outs = (lengthOnly 2 3).outs ++ [.opDone (.ok (.bytes []))] ∧
    (lengthOnly 2 3).mode ≠ .idle ∧ t.mode = .idle :=
  ⟨_, receiving_quiescent, rfl, by decide, by decide, rfl⟩

theorem witness_TraceDoesNotInfluenceControl :
    (∃ t, exec .wackOk (writing (okReq 0)) = .next t ∧ t.debug = false) ∧
    ∃ (s t s' : State) (es es' : List Instr), es ≠ es' ∧
      es.map (withDebug false) = es'.map (withDebug false) ∧
      untraced t.outs = untraced s.outs ∧ t = { s with debug := t.debug, outs := t.outs } ∧
      s.debug ≠ t.debug ∧ run es s = .next s' :=
  ⟨⟨_, rfl, rfl⟩, State.reset,
    { State.reset with debug := true, outs := [.trace (.stepStarted .sync1)] }, _,
    [.startFlash [1] prof2 (opt 1 1 false), .wackOk], [.startFlash [1] prof2 (opt 1 1 true), .wackOk],
    by decide, rfl, rfl, rfl, by decide, rfl⟩

theorem witness_OperationForgetsThePast : ∃ s' t' u',
    Quiescent idleTick ∧ Quiescent { idleTick with syncTry := 7 } ∧ idleTick.mode = .idle ∧
    idleTick.params = ({ idleTick with syncTry := 7 } : State).params ∧
    isStart (.startFlash [1] prof2 (opt 1 1 false)) = true ∧
    run [.startFlash [1] prof2 (opt 1 1 false), .wackOk] idleTick = .next s' ∧
    isStart (.startSync 1 1) = true ∧ run [.startSync 1 1, .wackOk] idleTick = .next t' ∧
    isStart (.startCommand (okReq 1)) = true ∧
    run [.startCommand (okReq 1), .wackOk] idleTick = .next u' :=
  ⟨_, _, _, idle_quiescent,
    ⟨rfl, ⟨by decide, by decide, by decide, by decide, by decide, by decide, by decide⟩, by decide,
      by decide⟩, rfl, rfl, rfl, rfl, rfl, rfl, rfl, rfl⟩

theorem witness_SilentDeviceExhaustsSync :
    State.reset.mode = .idle ∧ prof2.wf = true ∧ (opt 3 2 false).attempts = 3 ∧
    ∀ es ∈ [[Instr.chunk [0x00], .tick], [.tick], [.tick, .chunk []]],
      tickCount es + 1 = (opt 3 2 false).timeout ∧
        ∀ e ∈ es, isSilent State.reset.params.k.sof e = true := by decide

theorem witness_SuccessfulFlashFrames : ∃ t,
    Quiescent idleTick ∧ idleTick.mode = .idle ∧ (∀ e ∈ emptyFlash, isStart e = false) ∧
    run (.startFlash [] prof2 (opt 1 10 false) :: emptyFlash) idleTick = .next t ∧
    t.result = some (.ok (.flag true)) :=
  ⟨_, idle_quiescent, rfl, by decide, rfl, rfl⟩

end Sys2Proof.Tests
end

section
/-!
SUPPORT and PROOFS. The statements on scope: the step runs the decoded record (R10), an acknowledged
LOAD_ADDRESS sends the page command of the clipped slice (R203 to R206), and one step issues at most one
request (R10, R72).
-/

namespace Sys2Proof.Machine

/-! ### The step runs the decoded record -/

/-- R10: with a well-formed table, a record that decodes is taken off the port and run. -/
theorem step_of_decode_ok {s : State} {i : Instr} {rest : Bytes} (hk : s.params.k.wf = true)
    (h : decode s.inq = .ok (i, rest)) : step s = exec i (consumed rest s) := by
  simp [step, fetch, hk, h]

/-- R10: with a well-formed table, a port at which nothing decodes gives no step. -/
theorem step_of_decode_error {s : State} {r : Reject} (hk : s.params.k.wf = true)
    (h : decode s.inq = .error r) : step s = .refused (fetchRefusal r) := by
  simp [step, fetch, hk, h]

/-- R96: bytes that are no record are refused with the decoder's reason; only an empty port is told
apart (log entry 1). -/
theorem fetchRefusal_of_ne_noBytes {r : Reject} (h : r ≠ .noBytes) :
    fetchRefusal r = .undecodable r := by
  cases r with
  | noBytes => exact absurd rfl h
  | reservedTag | unknownOpcode | badOperands => rfl

/-- Settles O4: the step is its fetch, and the fetch is the decoder at the head of the port. -/
theorem stepRunsDecodedInstruction : Obligations.StepRunsDecodedInstruction := by
  intro s hk
  refine ⟨fun i rest h => step_of_decode_ok hk h, fun r h hr => ?_, fun h => ?_⟩
  · rw [step_of_decode_error hk h, fetchRefusal_of_ne_noBytes hr]
  · have hd : decode s.inq = .error .noBytes := by rw [h]; rfl
    rw [step_of_decode_error hk hd]
    rfl

/-! ### An acknowledged LOAD_ADDRESS sends the page command -/

/-- R166: issuing PROG_PAGE gives the state written out in Safety. -/
theorem issueProgPage_eq (d : Bytes) (s : State) : issueProgPage d s = progPageIssued d s := by
  simp [issueProgPage, cmdIssue, emit, progPageIssued, issuedAs, progPageRequest, ackRequest,
    exactRequest, buildFrame, KTable.okBytes]

/-- R167: issuing READ_PAGE gives the state written out in Safety. -/
theorem issueReadPage_eq (c : Nat) (s : State) : issueReadPage c s = readPageIssued c s := by
  simp [issueReadPage, cmdIssue, emit, readPageIssued, issuedAs, readPageRequest, lengthRequest,
    lengthOnlyRequest, buildFrame]

/-- R203, R204: a byte of the current slice is the image's byte as far beyond the cursor. -/
theorem currentSlice_getElem? (s : State) {x : Nat} (h : x < (currentSlice s).length) :
    (currentSlice s)[x]? = readImageByte s.image (s.pageAddr + x) := by
  rw [currentSlice, memRead_length] at h
  exact memRead_getElem? _ _ _ _ (by omega)

/-- R203: a LOAD_ADDRESS acknowledged in the page loop has the slice fetched and the page command of the
step issued. -/
theorem seqOnCmd_ok_loadAddr {s : State} (buf : Bytes) (hm : s.mode = .flash) (hp : s.pg = .loadAddr)
    (hs : s.flashStep = .upload ∨ s.flashStep = .verify) :
    seqOnCmd (.ok buf) s = .next (pageAddressed s) := by
  rcases hs with hs | hs <;> simp [seqOnCmd, hm, hs, pageOnCmd, hp]

/-- R203, R205: Upload's page command for the fetched slice. -/
theorem pageAddressed_upload {s : State} (h : s.flashStep = .upload) :
    pageAddressed s = progPageIssued (currentSlice s) (fetchSlice s) := by
  simp [pageAddressed, h, programPage, issueProgPage_eq]

/-- R203, R206: Verify's page command for the fetched slice. -/
theorem pageAddressed_verify {s : State} (h : s.flashStep = .verify) :
    pageAddressed s = readPageIssued (readCount (fetchSlice s)) (fetchSlice s) := by
  simp [pageAddressed, h, readPage, issueReadPage_eq]

/-- Settles O38: the slice of the statement is `currentSlice`, of which the Memory laws give the length and
each byte. -/
theorem acknowledgedAddressSendsPage : Obligations.AcknowledgedAddressSendsPage := by
  refine ⟨fun img a n => ⟨memRead_length img a n, memRead_getElem? img a n⟩, ?_⟩
  intro s buf stop _ hm hp hl hstop
  have hclip : stop = clipEnd s.params.clipRule s.image.length s.profile.p s.pageAddr := by
    rw [hstop]; rfl
  refine ⟨currentSlice s, hclip ▸ currentSlice_length s hl, fun x => currentSlice_getElem? s,
    fun hs => ?_, fun hs => ?_⟩
  · rw [seqOnCmd_ok_loadAddr buf hm hp (.inl hs), pageAddressed_upload hs]
    rfl
  · rw [seqOnCmd_ok_loadAddr buf hm hp (.inr hs), pageAddressed_verify hs]
    rfl

/-! ### One request per step -/

/-- From `s` to `t` outputs are only appended, and none of them is a request (R10). -/
def Quiet (s t : State) : Prop :=
  s.outs <+: t.outs ∧ t.outs.filter isRequest = s.outs.filter isRequest

/-- From `s` to `t` outputs are only appended, at most one of them is a request, and the engine then waits
for what it requested (R10, R72). -/
def OneRequest (s t : State) : Prop :=
  ∃ new, t.outs = s.outs ++ new ∧ new.countP isRequest ≤ 1 ∧
    (∀ f, .write f ∈ new → t.tx = .writing ∧ t.frame = f) ∧
    (.readReq ∈ new → t.tx = .receiving ∧ t.rxPend = true)

/-- R250: a trace is no request. -/
@[simp] theorem filter_isRequest_traceOf (d : Bool) (ev : TraceEvent) :
    (traceOf d ev).filter isRequest = [] := by
  cases d <;> rfl

/-- An operation that leaves the outputs alone is quiet. -/
theorem Quiet.of_outs_eq {s t : State} (h : t.outs = s.outs) : Quiet s t := by simp [Quiet, h]

/-- The outputs of a quiet operation, none of them a request. -/
theorem Quiet.exists_new {s t : State} (h : Quiet s t) :
    ∃ new, t.outs = s.outs ++ new ∧ ∀ o ∈ new, isRequest o = false := by
  obtain ⟨⟨new, hnew⟩, hreq⟩ := h
  rw [← hnew, List.filter_append, List.append_right_eq_self, List.filter_eq_nil_iff] at hreq
  exact ⟨new, hnew.symm, by simpa using hreq⟩

/-- A quiet operation makes no request. -/
theorem Quiet.oneRequest {s t : State} (h : Quiet s t) : OneRequest s t := by
  obtain ⟨new, hnew, hreq⟩ := h.exists_new
  refine ⟨new, hnew, ?_, fun f hf => ?_, fun hr => ?_⟩
  · rw [List.countP_eq_zero.mpr (by simpa using hreq)]; omega
  · cases hreq _ hf
  · cases hreq _ hr

/-- A quiet operation may go before one that makes at most one request. -/
theorem Quiet.trans_oneRequest {s u t : State} (h : Quiet s u) (ht : OneRequest u t) :
    OneRequest s t := by
  obtain ⟨old, hold, hquiet⟩ := h.exists_new
  obtain ⟨new, hnew, hcount, hwrite, hread⟩ := ht
  refine ⟨old ++ new, by rw [hnew, hold, List.append_assoc], ?_, fun f hf => ?_, fun hr => ?_⟩
  · rwa [List.countP_append, List.countP_eq_zero.mpr (by simpa using hquiet), Nat.zero_add]
  · exact hwrite f ((List.mem_append.mp hf).resolve_left fun ho => nomatch hquiet _ ho)
  · exact hread ((List.mem_append.mp hr).resolve_left fun ho => nomatch hquiet _ ho)

/-- R140: issuing a command writes its frame once, and the transceiver waits for the acknowledgment. -/
theorem oneRequest_cmdIssue (q : Request) (s : State) : OneRequest s (cmdIssue q s) :=
  ⟨_, cmdIssue_outs q s, by simp [isRequest], by simp, by simp⟩

/-- R110: starting a receive requests one read, which is then outstanding. -/
theorem oneRequest_rxStart (n t : Nat) (s : State) : OneRequest s (rxStart n t s) :=
  ⟨_, rxStart_outs n t s, by simp [isRequest], by simp, by simp⟩

/-- R115: a receive that goes on requests one read, which is then outstanding. -/
theorem oneRequest_continueRead {s : State} (h : s.tx = .receiving) : OneRequest s (continueRead s) :=
  ⟨_, continueRead_outs s, by simp [isRequest], by simp, by simp [h]⟩

/-- A command issued after quiet operations is the one request. -/
theorem Quiet.issue {s u : State} (q : Request) (h : Quiet s u) : OneRequest s (cmdIssue q u) :=
  h.trans_oneRequest (oneRequest_cmdIssue q u)

/-- R194: the end of an operation makes no request. -/
theorem quiet_finish (r : OpResult) (s : State) : Quiet s (finish r s) := by
  simp [Quiet, isRequest]

/-- R191: a failed step makes no request. -/
theorem quiet_stepFail (e : Err) (s : State) : Quiet s (stepFail e s) := by
  simp [Quiet, stepFail, isRequest]

/-- R192: a step that succeeds makes no request. -/
theorem quiet_stepSucceeded (s : State) : Quiet s (stepSucceeded s) := by simp [Quiet]

/-- R192, R185: between two steps of a flash no request is made. -/
theorem quiet_nextStep (st : FlashStep) (s : State) : Quiet s (enterStep st (stepSucceeded s)) := by
  simp [Quiet]

/-- R192: the end of a step issues the first command of the next step, or ends the flash. -/
theorem oneRequest_of_stepOk {s t : State} (h : stepOk s = .next t) : OneRequest s t := by
  rcases stepOk_cases h with ⟨_, rfl⟩ | ⟨_, rfl⟩ | ⟨_, rfl⟩ | ⟨_, rfl⟩ | ⟨_, rfl⟩ | ⟨_, _, rfl⟩ |
    ⟨_, _, rfl⟩ | ⟨_, _, rfl⟩ | ⟨_, _, rfl⟩ | ⟨_, rfl⟩ | ⟨_, rfl⟩
  · exact Quiet.issue _ (quiet_nextStep .sync2 s)
  · exact Quiet.issue _ (quiet_nextStep .sync3 s)
  · exact Quiet.issue _ (quiet_nextStep .signature s)
  · exact Quiet.issue _ (quiet_nextStep .setOptions s)
  · exact Quiet.issue _ (quiet_nextStep .enterProgmode s)
  · exact Quiet.issue _ (quiet_nextStep .upload s)
  · exact Quiet.issue _ (by simp [Quiet])
  · exact Quiet.issue _ (quiet_nextStep .verify s)
  · exact Quiet.issue _ (by simp [Quiet])
  · exact Quiet.issue _ (quiet_nextStep .exitProgmode s)
  · exact (quiet_stepSucceeded s).trans_oneRequest (quiet_finish _ (stepSucceeded s)).oneRequest

/-- R183: a failed command issues Sync's next attempt, or ends the operation. -/
theorem oneRequest_of_seqOnCmd_err {e : Err} {s t : State} (h : seqOnCmd (.err e) s = .next t) :
    OneRequest s t := by
  rcases seqOnCmd_err_cases h with ⟨_, rfl⟩ | ⟨_, _, rfl⟩ | ⟨_, _, rfl⟩ | ⟨_, _, _, rfl⟩ |
    ⟨_, _, _, rfl⟩
  · exact (quiet_finish _ s).oneRequest
  · exact Quiet.issue _ (.of_outs_eq (by simp))
  · exact (quiet_finish _ (attemptFailed e s)).oneRequest
  · exact (quiet_stepFail _ (attemptFailed e s)).oneRequest
  · exact (quiet_stepFail e s).oneRequest

/-- R183: a successful command is followed by at most one further command. -/
theorem oneRequest_of_seqOnCmd_ok {buf : Bytes} {s t : State} (h : seqOnCmd (.ok buf) s = .next t) :
    OneRequest s t := by
  rcases seqOnCmd_ok_cases h with ⟨_, rfl⟩ | ⟨_, _, _, h⟩ | ⟨_, _, h⟩ | ⟨_, _, _, rfl⟩ |
    ⟨_, _, _, rfl⟩ | ⟨_, _, _, rfl⟩ | ⟨_, _, _, _, rfl⟩ | ⟨_, _, _, _, rfl⟩
  · exact (quiet_finish _ s).oneRequest
  · exact oneRequest_of_stepOk h
  · exact (oneRequest_of_stepOk h : OneRequest (keepSignature buf s) t)
  · exact Quiet.issue _ (.of_outs_eq (fetchSlice_outs s))
  · exact Quiet.issue _ (.of_outs_eq (fetchSlice_outs s))
  · exact (Quiet.of_outs_eq (advance_outs s)).oneRequest
  · exact (Quiet.of_outs_eq (advance_outs s)).oneRequest
  · exact (quiet_stepFail _ s).oneRequest

/-- R183: a command's result is followed by at most one further command. -/
theorem oneRequest_of_seqOnCmd {r : Reply} {s t : State} (h : seqOnCmd r s = .next t) :
    OneRequest s t := by
  cases r with
  | ok buf => exact oneRequest_of_seqOnCmd_ok h
  | err e => exact oneRequest_of_seqOnCmd_err h

/-- R116: the end of a receive is followed by at most one further command. -/
theorem oneRequest_of_rxFinish {r : Reply} {s t : State} (h : rxFinish r s = .next t) :
    OneRequest s t := by
  rw [rxFinish_eq] at h
  exact (Quiet.of_outs_eq (by simp)).trans_oneRequest (oneRequest_of_seqOnCmd h)

/-- R209 to R211: a tick of the settle delay issues at most one command. -/
theorem oneRequest_of_settleTick {s t : State} (h : settleTick s = .next t) : OneRequest s t := by
  rcases settleTick_cases h with ⟨_, rfl⟩ | ⟨_, _, rfl⟩ | ⟨_, _, h⟩
  · exact (Quiet.of_outs_eq (countSettle_outs s)).oneRequest
  · exact Quiet.issue _ (.of_outs_eq (by simp))
  · exact (Quiet.of_outs_eq (by simp)).trans_oneRequest (oneRequest_of_stepOk h)

/-- R111: a chunk ends the receive, or one further read is requested. -/
theorem oneRequest_of_exec_chunk {c : Bytes} {s t : State} (hq : Quiescent s)
    (h : exec (.chunk c) s = .next t) : OneRequest s t := by
  obtain ⟨hpend, h⟩ := execChunk_cases h
  have hacc : Quiet s (acceptChunk c s) := .of_outs_eq (acceptChunk_outs c s)
  rcases h with ⟨_, h⟩ | ⟨_, h⟩ | ⟨_, rfl⟩
  · exact hacc.trans_oneRequest (oneRequest_of_rxFinish h : OneRequest (forgetBuffer _) t)
  · exact hacc.trans_oneRequest (oneRequest_of_rxFinish h)
  · have hrx : s.tx = .receiving := hq.rx.active_iff.mp (hq.pend_active hpend)
    exact hacc.trans_oneRequest (oneRequest_continueRead hrx)

/-- R119, R209: a tick makes no request of its own; the command after a timeout or the settle delay is the
only one. -/
theorem oneRequest_of_exec_tick {s t : State} (h : exec .tick s = .next t) : OneRequest s t := by
  rcases execTick_cases h with ⟨_, h⟩ | ⟨_, _, _, _, rfl⟩ | ⟨_, _, _, _, h⟩ | ⟨_, _, rfl⟩
  · exact oneRequest_of_settleTick h
  · exact (Quiet.of_outs_eq (countElapsed_outs s)).oneRequest
  · have hcancel : Quiet s (emit .readCancel (readOver (countElapsed s))) := by simp [Quiet, isRequest]
    exact hcancel.trans_oneRequest (oneRequest_of_rxFinish h)
  · exact (Quiet.of_outs_eq rfl).oneRequest

/-- R140: a wire command is one WRITE. -/
theorem oneRequest_of_exec_command {i : Instr} {s t : State}
    (hi : (i.wireParts s.params.k).isSome) (h : exec i s = .next t) : OneRequest s t := by
  obtain ⟨_, q, rfl⟩ := execCommand_cases hi h
  exact oneRequest_cmdIssue q s

/-- Settles O55: instruction by instruction, what a step appends is quiet but for at most one `cmdIssue`,
`rxStart` or `continueRead`. -/
theorem oneRequestPerStep : Obligations.OneRequestPerStep := by
  intro s t i hq h
  change OneRequest s t
  cases i with
  | getSync | readSign | setDevice | enterProgmode | leaveProgmode | loadAddress | progPage | readPage =>
    exact oneRequest_of_exec_command rfl h
  | tick => exact oneRequest_of_exec_tick h
  | chunk c => exact oneRequest_of_exec_chunk hq h
  | eos => exact (oneRequest_of_rxFinish (execEos_cases h).2 : OneRequest (readOver s) t)
  | readFail x => exact (oneRequest_of_rxFinish (execReadFail_cases h).2 : OneRequest (readOver s) t)
  | wackOk =>
    obtain ⟨_, rfl⟩ := execWackOk_cases h
    exact oneRequest_rxStart _ _ s
  | wackFail x => exact (oneRequest_of_seqOnCmd (execWackFail_cases h).2 : OneRequest (commandOver s) t)
  | startFlash img prof opts =>
    obtain ⟨_, _, rfl⟩ := execStartFlash_cases h
    exact Quiet.issue _ (by simp [Quiet])
  | startSync a b =>
    obtain ⟨_, rfl⟩ := execStartSync_cases h
    exact Quiet.issue _ (.of_outs_eq (by simp))
  | startCommand q =>
    obtain ⟨_, rfl⟩ := execStartCommand_cases h
    exact Quiet.issue q (.of_outs_eq (openCommand_outs s))

end Sys2Proof.Machine
end

section
/-!
SUPPORT and PROOFS. The registers of spec/10_state.md: their reset values (R48), the invariants of R30, R43
and R42 that every step keeps, and which event may write the input latches and the receiver registers (R45).
The sequencer is looked at once, through the groups of registers it leaves alone and the begin of a step.
-/

namespace Sys2Proof.Machine

/-! ### Groups of registers -/

/-- R20 to R23: the input latches, with the parameters of R6 and the port (log entries 5 and 1). -/
structure Latches where
  params   : Params
  inq      : Bytes
  image    : Bytes
  profile  : Profile
  attempts : Nat
  timeout  : Nat
  debug    : Bool

/-- R34 to R39: the receiver registers, with the free counter (log entry 8). -/
structure Receiver where
  active   : Bool
  pend     : Bool
  synced   : Bool
  buf      : Bytes
  expected : Nat
  timeout  : Nat
  elapsed  : Nat
  freeCtr  : Nat

/-- R24, R26, R40, R42: what the session's invariant speaks of, but for ATTEMPTS. -/
structure Session where
  mode      : Mode
  flashStep : FlashStep
  syncTry   : Nat
  result    : Option OpResult
  timeline  : List (FlashStep × StepOutcome)

/-- The input latches of a state. -/
def State.latches (s : State) : Latches :=
  ⟨s.params, s.inq, s.image, s.profile, s.attempts, s.timeout, s.debug⟩

/-- The receiver registers of a state. -/
def State.receiver (s : State) : Receiver :=
  ⟨s.rxActive, s.rxPend, s.rxSynced, s.rxBuf, s.rxExp, s.rxTo, s.rxEl, s.freeCtr⟩

/-- The session registers of a state. -/
def State.session (s : State) : Session :=
  ⟨s.mode, s.flashStep, s.syncTry, s.result, s.timeline⟩

/-! ### What the sequencer leaves alone -/

/-- From `s` to `t` no input latch and no receiver register is written. -/
structure SequencerKeeps (s t : State) : Prop where
  latches : t.latches = s.latches
  receiver : t.receiver = s.receiver

/-- Registers that are left alone from a state that has them from `s` are left alone from `s`. -/
theorem SequencerKeeps.of_eq {s u t : State} (h : SequencerKeeps u t) (hl : u.latches = s.latches)
    (hr : u.receiver = s.receiver) : SequencerKeeps s t := ⟨h.latches.trans hl, h.receiver.trans hr⟩

/-- The steps before `st`, all passed (R42). -/
def passedBefore (st : FlashStep) : List (FlashStep × StepOutcome) := st.before.map fun x => (x, .ok)

/-- R185: from `s`, whose step has passed, the flash has come to `u`, where the first command of a later step
is issued. -/
structure StepBegun (s u : State) : Prop extends SequencerKeeps s u where
  mode : u.mode = s.mode
  result : u.result = s.result
  listed : s.pg = .none → controlListed .flash u.flashStep u.pg .writing = true
  passed : s.timeline = passedBefore s.flashStep → u.timeline = passedBefore u.flashStep
  tries : u.flashStep.isSync = true → u.syncTry = 1

/-- R184, R185: a Sync step begins with its first attempt. -/
theorem stepBegun_sync (st : FlashStep) {s : State} (hsync : st.isSync = true)
    (hnext : st.before = s.flashStep.before ++ [s.flashStep]) :
    StepBegun s (firstAttempt (enterStep st (stepSucceeded s))) where
  latches := by simp [State.latches]
  receiver := by simp [State.receiver]
  mode := by simp
  result := by simp
  listed hp := by revert hsync; cases st <;> simp [hp, controlListed, FlashStep.isSync, FlashStep.isPaged]
  passed h := by simp [h, passedBefore, hnext]
  tries _ := by simp

/-- R185: a step of one command begins with that command. -/
theorem stepBegun_single (st : FlashStep) {s : State} (hne : st ≠ .none) (hpaged : st.isPaged = false)
    (hsync : st.isSync = false) (hnext : st.before = s.flashStep.before ++ [s.flashStep]) :
    StepBegun s (enterStep st (stepSucceeded s)) where
  latches := by simp [State.latches]
  receiver := by simp [State.receiver]
  mode := by simp
  result := by simp
  listed hp := by simp [hp, controlListed, hne, hpaged]
  passed h := by simp [h, passedBefore, hnext]
  tries h := by simp [hsync] at h

/-- R200 to R202: a paged step begins with the address of its first page. -/
theorem stepBegun_paged (st : FlashStep) {s : State} (hpaged : st.isPaged = true)
    (hsync : st.isSync = false) (hnext : st.before = s.flashStep.before ++ [s.flashStep]) :
    StepBegun s (addressPage (rewindCursor (enterStep st (stepSucceeded s)))) where
  latches := by simp [State.latches]
  receiver := by simp [State.receiver]
  mode := by simp
  result := by simp
  listed _ := by simp [controlListed, hpaged]
  passed h := by simp [h, passedBefore, hnext]
  tries h := by simp [hsync] at h

/-- R201: a paged step whose image is empty passes at once. -/
theorem StepBegun.of_empty_page_loop (st : FlashStep) {s u : State}
    (hnext : st.before = s.flashStep.before ++ [s.flashStep])
    (h : StepBegun (leavePage (rewindCursor (enterStep st (stepSucceeded s)))) u) : StepBegun s u where
  latches := by rw [h.latches]; simp [State.latches]
  receiver := by rw [h.receiver]; simp [State.receiver]
  mode := by simp [h.mode]
  result := by simp [h.result]
  listed _ := h.listed rfl
  passed hp := h.passed (by simp [hp, passedBefore, hnext])
  tries := h.tries

/-- R192: the end of a step issues the first command of a later step, or ends the flash. -/
theorem stepOk_begins {s t : State} (h : stepOk s = .next t) :
    (∃ q u, StepBegun s u ∧ t = cmdIssue q u) ∨ t = finish (.ok (.flag true)) (stepSucceeded s) := by
  rcases stepOk_cases h with ⟨hs, rfl⟩ | ⟨hs, rfl⟩ | ⟨hs, rfl⟩ | ⟨hs, rfl⟩ | ⟨hs, rfl⟩ | ⟨hs, _, rfl⟩ |
    ⟨hs, _, rfl⟩ | ⟨hs, _, rfl⟩ | ⟨hs, _, rfl⟩ | ⟨hs, rfl⟩ | ⟨_, rfl⟩
  · exact .inl ⟨_, _, stepBegun_sync .sync2 rfl (by rw [hs]; rfl), rfl⟩
  · exact .inl ⟨_, _, stepBegun_sync .sync3 rfl (by rw [hs]; rfl), rfl⟩
  · exact .inl ⟨_, _, stepBegun_single .signature nofun rfl rfl (by rw [hs]; rfl), rfl⟩
  · exact .inl ⟨_, _, stepBegun_single .setOptions nofun rfl rfl (by rw [hs]; rfl), rfl⟩
  · exact .inl ⟨_, _, stepBegun_single .enterProgmode nofun rfl rfl (by rw [hs]; rfl), rfl⟩
  · exact .inl ⟨_, _, stepBegun_paged .upload rfl rfl (by rw [hs]; rfl), rfl⟩
  · exact .inl ⟨_, _, .of_empty_page_loop .upload (by rw [hs]; rfl) (.of_empty_page_loop .verify
      (by simp [FlashStep.before])
      (stepBegun_single .exitProgmode nofun rfl rfl (by simp [FlashStep.before]))), rfl⟩
  · exact .inl ⟨_, _, stepBegun_paged .verify rfl rfl (by rw [hs]; rfl), rfl⟩
  · exact .inl ⟨_, _, .of_empty_page_loop .verify (by rw [hs]; rfl)
      (stepBegun_single .exitProgmode nofun rfl rfl (by simp [FlashStep.before])), rfl⟩
  · exact .inl ⟨_, _, stepBegun_single .exitProgmode nofun rfl rfl (by rw [hs]; rfl), rfl⟩
  · exact .inr rfl

/-- R140: issuing a command writes no input latch and no receiver register. -/
theorem SequencerKeeps.cmdIssue {s u : State} (q : Request) (h : SequencerKeeps s u) :
    SequencerKeeps s (cmdIssue q u) := ⟨h.latches, h.receiver⟩

/-- R191: a failed step writes no input latch and no receiver register. -/
theorem sequencerKeeps_stepFail (e : Err) (s : State) : SequencerKeeps s (stepFail e s) :=
  ⟨by simp [stepFail, State.latches], by simp [stepFail, State.receiver]⟩

/-- R192: the end of a step writes no input latch and no receiver register. -/
theorem sequencerKeeps_of_stepOk {s t : State} (h : stepOk s = .next t) : SequencerKeeps s t := by
  rcases stepOk_begins h with ⟨q, u, hu, rfl⟩ | rfl
  · exact hu.toSequencerKeeps.cmdIssue q
  · exact ⟨by simp [State.latches], by simp [State.receiver]⟩

/-- R183: the dispatch of a command's result writes no input latch and no receiver register. -/
theorem sequencerKeeps_of_seqOnCmd {r : Reply} {s t : State} (h : seqOnCmd r s = .next t) :
    SequencerKeeps s t := by
  cases r with
  | ok buf =>
    rcases seqOnCmd_ok_cases h with ⟨_, rfl⟩ | ⟨_, _, _, h⟩ | ⟨_, _, h⟩ | ⟨_, _, _, rfl⟩ |
      ⟨_, _, _, rfl⟩ | ⟨_, _, _, rfl⟩ | ⟨_, _, _, _, rfl⟩ | ⟨_, _, _, _, rfl⟩
    · exact ⟨rfl, rfl⟩
    · exact sequencerKeeps_of_stepOk h
    · exact (sequencerKeeps_of_stepOk h).of_eq rfl rfl
    · exact ⟨rfl, rfl⟩
    · exact ⟨rfl, rfl⟩
    · exact ⟨rfl, rfl⟩
    · exact ⟨rfl, rfl⟩
    · exact sequencerKeeps_stepFail _ s
  | err e =>
    rcases seqOnCmd_err_cases h with ⟨_, rfl⟩ | ⟨_, _, rfl⟩ | ⟨_, _, rfl⟩ | ⟨_, _, _, rfl⟩ | ⟨_, _, _, rfl⟩
    · exact ⟨rfl, rfl⟩
    · exact ⟨rfl, rfl⟩
    · exact ⟨rfl, rfl⟩
    · exact (sequencerKeeps_stepFail _ (attemptFailed e s)).of_eq rfl rfl
    · exact sequencerKeeps_stepFail e s

/-- R209: a tick of the settle delay writes no input latch and no receiver register. -/
theorem sequencerKeeps_of_settleTick {s t : State} (h : settleTick s = .next t) : SequencerKeeps s t := by
  rcases settleTick_cases h with ⟨_, rfl⟩ | ⟨_, _, rfl⟩ | ⟨_, _, h⟩
  · exact ⟨rfl, rfl⟩
  · exact ⟨rfl, rfl⟩
  · exact (sequencerKeeps_of_stepOk h).of_eq rfl rfl

/-- R116: once the receiver has stopped, the end of a receive writes no input latch and no receiver
register. -/
theorem sequencerKeeps_of_rxFinish {r : Reply} {s t : State} (h : rxFinish r s = .next t) :
    SequencerKeeps (receiverOff s) t := by
  rw [rxFinish_eq] at h
  exact (sequencerKeeps_of_seqOnCmd h).of_eq rfl rfl

/-! ### The control table (R30) -/

/-- A state of R30's table in which no receive runs. -/
def AtRest (s : State) : Prop := ControlOk s ∧ s.tx ≠ .receiving

/-- R30: with no operation running, no page phase and no command. -/
theorem ControlOk.of_idle {s : State} (h : ControlOk s) (hm : s.mode = .idle) :
    s.pg = .none ∧ s.tx = .idle := by
  simpa [ControlOk, controlListed, hm] using h

/-- R30: a settle delay is waited out in a paged step, with no command in flight. -/
theorem ControlOk.of_settle {s : State} (h : ControlOk s) (hp : s.pg = .settle) :
    s.mode = .flash ∧ s.flashStep.isPaged = true ∧ s.tx = .idle := by
  unfold ControlOk at h
  cases hm : s.mode <;> simp [controlListed, hm, hp] at h ⊢
  exact h

/-- R30: the table does not tell a written command from one that is received. -/
theorem controlListed_receiving (m : Mode) (st : FlashStep) (pg : Pg) :
    controlListed m st pg .receiving = controlListed m st pg .writing := by
  cases m with
  | idle | cmdOp | syncOp => rfl
  | flash => cases pg <;> rfl

/-- R140: a command issued at a listed position. -/
theorem atRest_cmdIssue {s : State} (q : Request)
    (h : controlListed s.mode s.flashStep s.pg .writing = true) : AtRest (cmdIssue q s) :=
  ⟨h, nofun⟩

/-- R194: the end of an operation whose command is over. -/
theorem atRest_finish {s : State} (r : OpResult) (h : s.tx = .idle) : AtRest (finish r s) := by
  simp [AtRest, ControlOk, controlListed, h]

/-- R191: a failed step whose command is over. -/
theorem atRest_stepFail {s : State} (e : Err) (h : s.tx = .idle) : AtRest (stepFail e s) :=
  atRest_finish _ (by simp [h])

/-- R208: a page is over and the settle delay begins. -/
theorem atRest_advance {s : State} (hm : s.mode = .flash) (hs : s.flashStep.isPaged = true)
    (h : s.tx = .idle) : AtRest (advance s) := by
  simp [AtRest, ControlOk, controlListed, hm, hs, h]

/-- R192: the end of a step leads to a listed position. -/
theorem atRest_of_stepOk {s t : State} (h : stepOk s = .next t) (hm : s.mode = .flash)
    (hp : s.pg = .none) (htx : s.tx = .idle) : AtRest t := by
  rcases stepOk_begins h with ⟨q, u, hu, rfl⟩ | rfl
  · exact atRest_cmdIssue q (by rw [hu.mode, hm]; exact hu.listed hp)
  · exact atRest_finish _ (by simp [htx])

/-- R183: the result of a command of a listed position leads to a listed position. -/
theorem atRest_of_seqOnCmd {r : Reply} {s t : State} (h : seqOnCmd r s = .next t)
    (hl : controlListed s.mode s.flashStep s.pg .writing = true) (htx : s.tx = .idle) : AtRest t := by
  cases r with
  | ok buf =>
    have hpg : s.mode = .flash → s.flashStep.isPaged = false → s.pg = .none := fun hm hs => by
      cases hp : s.pg <;> simp [controlListed, hm, hs, hp] at hl ⊢
    rcases seqOnCmd_ok_cases h with ⟨_, rfl⟩ | ⟨hm, hs, _, h⟩ | ⟨hm, hs, h⟩ | ⟨hm, hs, _, rfl⟩ |
      ⟨hm, hs, _, rfl⟩ | ⟨hm, hs, _, rfl⟩ | ⟨hm, hs, _, _, rfl⟩ | ⟨_, _, _, _, rfl⟩
    · exact atRest_finish _ htx
    · exact atRest_of_stepOk h hm (hpg hm hs) htx
    · exact atRest_of_stepOk h hm (hpg hm (by rw [hs]; rfl)) htx
    · exact atRest_cmdIssue _ (by simp [controlListed, hm, hs, FlashStep.isPaged])
    · exact atRest_cmdIssue _ (by simp [controlListed, hm, hs, FlashStep.isPaged])
    · exact atRest_advance hm (by rw [hs]; rfl) htx
    · exact atRest_advance hm (by rw [hs]; rfl) htx
    · exact atRest_stepFail _ htx
  | err e =>
    rcases seqOnCmd_err_cases h with ⟨_, rfl⟩ | ⟨_, _, rfl⟩ | ⟨_, _, rfl⟩ | ⟨_, _, _, rfl⟩ | ⟨_, _, _, rfl⟩
    · exact atRest_finish _ htx
    · exact atRest_cmdIssue _ hl
    · exact atRest_finish _ htx
    · exact atRest_stepFail _ htx
    · exact atRest_stepFail _ htx

/-- R209 to R211: a tick of the settle delay leads to a listed position. -/
theorem atRest_of_settleTick {s t : State} (h : settleTick s = .next t) (hc : ControlOk s)
    (hp : s.pg = .settle) : AtRest t := by
  obtain ⟨hm, hs, htx⟩ := hc.of_settle hp
  rcases settleTick_cases h with ⟨_, rfl⟩ | ⟨_, _, rfl⟩ | ⟨_, _, h⟩
  · exact ⟨hc, by simp [htx]⟩
  · exact atRest_cmdIssue _ (by simp [controlListed, hm, hs])
  · exact atRest_of_stepOk h hm rfl htx

/-! ### The receiver's invariants (R43) -/

/-- R43: a buffer that is not empty begins with the marker. -/
def BufferMarked (s : State) : Prop :=
  s.rxBuf ≠ [] → s.rxSynced = true ∧ s.rxBuf.head? = some s.params.k.sof

/-- R112, R113: the receiver is synchronized with the marker at the head of its buffer, or it has nothing. -/
def Framed (s : State) : Prop :=
  (s.rxSynced = true ∧ s.rxBuf.head? = some s.params.k.sof) ∨ (s.rxSynced = false ∧ s.rxBuf = [])

/-- R43: what a state with no receive running has of the receiver. -/
structure ReceiverQuiet (s : State) : Prop where
  inactive : s.rxActive = false
  no_read : s.rxPend = false
  marked : BufferMarked s

/-- A framed buffer is one R43 admits. -/
theorem Framed.marked {s : State} (h : Framed s) : BufferMarked s := by
  rcases h with h | ⟨_, hb⟩
  · exact fun _ => h
  · exact fun hne => absurd hb hne

/-- R112: a framed receiver that is synchronized has a buffer. -/
theorem Framed.buf_ne_nil {s : State} (h : Framed s) (hs : s.rxSynced = true) : s.rxBuf ≠ [] := by
  rcases h with ⟨_, hb⟩ | ⟨hs', _⟩
  · intro hnil; simp [hnil] at hb
  · simp [hs] at hs'

/-- R43: in a quiescent state a running receive is framed. -/
theorem Quiescent.framed {s : State} (h : Quiescent s) (ha : s.rxActive = true) : Framed s := by
  cases hs : s.rxSynced with
  | true => exact .inl (h.rx.buf_marker (h.synced_buf ha hs))
  | false =>
    refine .inr ⟨hs, ?_⟩
    by_contra hne
    simp [(h.rx.buf_marker hne).1] at hs

/-- R112, R113: a chunk leaves a framed receiver framed: the first marker found heads the buffer. -/
theorem framed_acceptChunk {s : State} (c : Bytes) (h : Framed s) : Framed (acceptChunk c s) := by
  rcases h with ⟨hs, hb⟩ | ⟨hs, hb⟩
  · exact .inl (by simp [hs, hb, scan, List.head?_append])
  · cases hk : (scan s.params.k.sof false c).1 with
    | true => exact .inl (by simp [hs, hb, hk, scan_marker hk])
    | false => exact .inr (by simp [hs, hb, hk])

/-- R43: where no receiver register is written, a quiet receiver stays quiet. -/
theorem ReceiverQuiet.keep {s t : State} (h : ReceiverQuiet s) (hr : t.receiver = s.receiver)
    (hparams : t.params = s.params) : ReceiverQuiet t := by
  have ha : t.rxActive = s.rxActive := congrArg Receiver.active hr
  have hp : t.rxPend = s.rxPend := congrArg Receiver.pend hr
  have hs : t.rxSynced = s.rxSynced := congrArg Receiver.synced hr
  have hb : t.rxBuf = s.rxBuf := congrArg Receiver.buf hr
  have hmarked : BufferMarked t := by
    rw [BufferMarked, hb, hs, hparams]
    exact h.marked
  exact ⟨ha.trans h.inactive, hp.trans h.no_read, hmarked⟩

/-- R43: a quiescent state in which nothing is received. -/
theorem Quiescent.receiverQuiet {s : State} (h : Quiescent s) (htx : s.tx ≠ .receiving) :
    ReceiverQuiet s := by
  have ha : s.rxActive = false := Bool.eq_false_iff.mpr (mt h.rx.active_iff.mp htx)
  exact ⟨ha, Bool.eq_false_iff.mpr (mt h.pend_active (by simp [ha])), h.rx.buf_marker⟩

/-- R30, R43: a listed position without a receive is quiescent once the receiver is. -/
theorem ReceiverQuiet.quiescent {s : State} (h : ReceiverQuiet s) (hr : AtRest s) : Quiescent s where
  control := hr.1
  rx :=
    { active_iff := by simp [h.inactive, hr.2]
      active_pend := by simp [h.inactive]
      active_short := by simp [h.inactive]
      buf_marker := h.marked
      idle_quiet := fun hm => ⟨(hr.1.of_idle hm).2, (hr.1.of_idle hm).1, h.no_read⟩
      settle_quiet := fun hp => (hr.1.of_settle hp).2.2
      elapsed_le := by simp [h.inactive] }
  pend_active := by simp [h.no_read]
  synced_buf := by simp [h.inactive]

/-- R43: a running receive that has not got all its bytes, at a listed position. -/
theorem quiescent_of_receiving {s : State}
    (hl : controlListed s.mode s.flashStep s.pg .writing = true) (htx : s.tx = .receiving)
    (ha : s.rxActive = true) (hp : s.rxPend = true) (hf : Framed s)
    (hshort : s.rxBuf.length < s.rxExp ∨ (s.rxExp = 0 ∧ s.rxBuf = []))
    (hel : 0 < s.rxTo → s.rxEl ≤ s.rxTo) : Quiescent s := by
  have hc : ControlOk s := by rw [ControlOk, htx, controlListed_receiving]; exact hl
  exact
    { control := hc
      rx :=
        { active_iff := by simp [ha, htx]
          active_pend := fun _ => hp
          active_short := fun _ => hshort
          buf_marker := hf.marked
          idle_quiet := fun hm => by simp [(hc.of_idle hm).2] at htx
          settle_quiet := fun hs => (hc.of_settle hs).2.2
          elapsed_le := fun h _ => hel h }
      pend_active := fun _ => ha
      synced_buf := fun _ => hf.buf_ne_nil }

/-- R43: a listed position reached by the sequencer from a quiet receiver is quiescent. -/
theorem ReceiverQuiet.quiescent_of_keeps {s t : State} (h : ReceiverQuiet s) (hk : SequencerKeeps s t)
    (hr : AtRest t) : Quiescent t :=
  (h.keep hk.receiver (congrArg Latches.params hk.latches)).quiescent hr

/-- R183: the result of a command of a listed position leads to a quiescent state. -/
theorem quiescent_of_seqOnCmd {r : Reply} {s t : State} (h : seqOnCmd r s = .next t)
    (hl : controlListed s.mode s.flashStep s.pg .writing = true) (htx : s.tx = .idle)
    (hq : ReceiverQuiet s) : Quiescent t :=
  hq.quiescent_of_keeps (sequencerKeeps_of_seqOnCmd h) (atRest_of_seqOnCmd h hl htx)

/-- R116: the end of a receive of a listed position leads to a quiescent state. -/
theorem quiescent_of_rxFinish {r : Reply} {s t : State} (h : rxFinish r s = .next t)
    (hl : controlListed s.mode s.flashStep s.pg .writing = true) (hb : BufferMarked s) : Quiescent t := by
  rw [rxFinish_eq] at h
  exact quiescent_of_seqOnCmd h hl rfl ⟨rfl, rfl, hb⟩

/-- R37, R43: the buffer after an overflow is one R43 admits where the receiver was synchronized. -/
theorem bufferMarked_forgetBuffer {s : State} (h : s.rxSynced = true) : BufferMarked (forgetBuffer s) := by
  intro hne
  refine ⟨h, ?_⟩
  simp only [forgetBuffer_rxBuf, forgetBuffer_params] at hne ⊢
  cases hfree : Config.freeBytes s.freeCtr with
  | nil => simp [hfree, unspecifiedBuffer] at hne
  | cons b r => simp [unspecifiedBuffer]

/-! ### Every step keeps the control table and the receiver's invariants -/

/-- R34, R98: in a quiescent state an outstanding read belongs to a running receive of a listed position. -/
theorem Quiescent.receiving {s : State} (h : Quiescent s) (hp : s.rxPend = true) :
    s.tx = .receiving ∧ controlListed s.mode s.flashStep s.pg .writing = true := by
  have htx : s.tx = .receiving := h.rx.active_iff.mp (h.pend_active hp)
  exact ⟨htx, controlListed_writing h.control (by simp [htx])⟩

/-- R111: a chunk. -/
theorem quiescent_of_exec_chunk {c : Bytes} {s t : State} (hq : Quiescent s)
    (h : exec (.chunk c) s = .next t) : Quiescent t := by
  obtain ⟨hpend, h⟩ := execChunk_cases h
  have ha : s.rxActive = true := hq.pend_active hpend
  obtain ⟨htx, hl⟩ := hq.receiving hpend
  have hf : Framed (acceptChunk c s) := framed_acceptChunk c (hq.framed ha)
  rcases h with ⟨hlong, h⟩ | ⟨_, h⟩ | ⟨hshort, rfl⟩
  · have hne : (acceptChunk c s).rxBuf ≠ [] := List.length_pos_iff.mp (by omega)
    exact quiescent_of_rxFinish h hl (bufferMarked_forgetBuffer (hf.marked hne).1)
  · exact quiescent_of_rxFinish h hl hf.marked
  · exact quiescent_of_receiving (s := continueRead (acceptChunk c s)) hl htx ha rfl hf (.inl hshort)
      (fun hto => hq.rx.elapsed_le hto ha)

/-- R119, R209: a tick. -/
theorem quiescent_of_exec_tick {s t : State} (hq : Quiescent s) (h : exec .tick s = .next t) :
    Quiescent t := by
  rcases execTick_cases h with ⟨hp, h⟩ | ⟨_, ha, _, hlt, rfl⟩ | ⟨_, ha, _, _, h⟩ | ⟨_, _, rfl⟩
  · have htx : s.tx ≠ .receiving := by simp [hq.rx.settle_quiet hp]
    exact (hq.receiverQuiet htx).quiescent_of_keeps (sequencerKeeps_of_settleTick h)
      (atRest_of_settleTick h hq.control hp)
  · have hpend := hq.rx.active_pend ha
    obtain ⟨htx, hl⟩ := hq.receiving hpend
    exact quiescent_of_receiving (s := countElapsed s) hl htx ha hpend (hq.framed ha)
      (hq.rx.active_short ha) (fun _ => hlt.le)
  · obtain ⟨_, hl⟩ := hq.receiving (hq.rx.active_pend ha)
    exact quiescent_of_rxFinish h hl hq.rx.buf_marker
  · exact hq

/-- R143, R110: an acknowledged WRITE. -/
theorem quiescent_of_exec_wackOk {s t : State} (hq : Quiescent s) (h : exec .wackOk s = .next t) :
    Quiescent t := by
  obtain ⟨htx, rfl⟩ := execWackOk_cases h
  have hl := controlListed_writing hq.control (by simp [htx])
  exact quiescent_of_receiving (s := rxStart _ _ s) hl rfl rfl rfl (.inr ⟨rfl, rfl⟩)
    ((Nat.eq_zero_or_pos _).symm.imp_right fun h0 => ⟨h0, rfl⟩) (fun _ => Nat.zero_le _)

/-- R144: a failed WRITE. -/
theorem quiescent_of_exec_wackFail {x : Cause} {s t : State} (hq : Quiescent s)
    (h : exec (.wackFail x) s = .next t) : Quiescent t := by
  obtain ⟨htx, h⟩ := execWackFail_cases h
  have hl := controlListed_writing hq.control (by simp [htx])
  obtain ⟨ha, hp, hb⟩ := hq.receiverQuiet (by simp [htx])
  exact quiescent_of_seqOnCmd h hl rfl ⟨ha, hp, hb⟩

/-- R180 to R182: an operation begun from the idle state writes no receiver register. -/
theorem quiescent_of_start {s t : State} (hq : Quiescent s) (hm : s.mode = .idle)
    (hr : t.receiver = s.receiver) (hparams : t.params = s.params) (ht : AtRest t) : Quiescent t := by
  have htx : s.tx ≠ .receiving := by simp [(hq.control.of_idle hm).2]
  exact ((hq.receiverQuiet htx).keep hr hparams).quiescent ht

/-- R30, R43: every instruction keeps the quiescent states. -/
theorem quiescent_of_exec {i : Instr} {s t : State} (hq : Quiescent s) (h : exec i s = .next t) :
    Quiescent t := by
  have hcommand : (i.wireParts s.params.k).isSome → Quiescent t := fun hi => by
    have hissue := (execCommand_cases hi h).1
    simp [canIssue_of_controlOk hq.control] at hissue
  cases i with
  | getSync | readSign | setDevice | enterProgmode | leaveProgmode | loadAddress | progPage | readPage =>
    exact hcommand rfl
  | tick => exact quiescent_of_exec_tick hq h
  | chunk c => exact quiescent_of_exec_chunk hq h
  | eos =>
    obtain ⟨hpend, h⟩ := execEos_cases h
    exact quiescent_of_rxFinish h (hq.receiving hpend).2 hq.rx.buf_marker
  | readFail x =>
    obtain ⟨hpend, h⟩ := execReadFail_cases h
    exact quiescent_of_rxFinish h (hq.receiving hpend).2 hq.rx.buf_marker
  | wackOk => exact quiescent_of_exec_wackOk hq h
  | wackFail x => exact quiescent_of_exec_wackFail hq h
  | startFlash img prof opts =>
    obtain ⟨hm, _, rfl⟩ := execStartFlash_cases h
    exact quiescent_of_start hq hm (by simp [State.receiver, syncBegin, issueGetSync])
      (by simp [syncBegin, issueGetSync])
      (atRest_cmdIssue _ (by simp [controlListed, FlashStep.isPaged]))
  | startSync a b =>
    obtain ⟨hm, rfl⟩ := execStartSync_cases h
    exact quiescent_of_start hq hm rfl rfl
      (atRest_cmdIssue _ (by simp [controlListed, (hq.control.of_idle hm).1]))
  | startCommand q =>
    obtain ⟨hm, rfl⟩ := execStartCommand_cases h
    exact quiescent_of_start hq hm rfl rfl
      (atRest_cmdIssue _ (by simp [controlListed, (hq.control.of_idle hm).1]))

/-- R10: taking a record off the port keeps the quiescent states. -/
theorem Quiescent.consumed {s : State} (h : Quiescent s) (rest : Bytes) :
    Quiescent (consumed rest s) := by
  obtain ⟨hc, ⟨h1, h2, h3, h4, h5, h6, h7⟩, hp, hs⟩ := h
  exact ⟨hc, ⟨h1, h2, h3, h4, h5, h6, h7⟩, hp, hs⟩

/-- Settles O48: instruction by instruction, the receiver's part by what the sequencer leaves alone, the control
part by the positions the sequencer leads to. -/
theorem stepKeepsQuiescent : Obligations.StepKeepsQuiescent := by
  intro s t hq h
  obtain ⟨_, i, rest, _, h⟩ := step_cases h
  exact quiescent_of_exec (hq.consumed rest) h

/-! ### What an event other than a START can do -/

/-- From `s` to `t` no input latch and no session register is written, as where only the receiver and the
transceiver move. -/
structure TransportOnly (s t : State) : Prop where
  latches : t.latches = s.latches
  session : t.session = s.session

/-- R116: the end of a receive hands a result to the sequencer. -/
theorem seqOnCmd_of_rxFinish {r : Reply} {s u t : State} (h : rxFinish r u = .next t)
    (hl : u.latches = s.latches) (hs : u.session = s.session) :
    ∃ r' u', TransportOnly s u' ∧ seqOnCmd r' u' = .next t := by
  rw [rxFinish_eq] at h
  exact ⟨_, commandOver (receiverOff u), ⟨hl, hs⟩, h⟩

/-- R98, R183, R209: an event that begins no operation leaves latches and session alone, or hands a
command's result to the sequencer, or is a tick of the settle delay. -/
theorem exec_cases_of_not_start {i : Instr} {s t : State} (hi : isStart i = false)
    (h : exec i s = .next t) :
    TransportOnly s t ∨ (∃ r u, TransportOnly s u ∧ seqOnCmd r u = .next t) ∨
      (i = .tick ∧ s.pg = .settle ∧ settleTick s = .next t) := by
  have hcommand : (i.wireParts s.params.k).isSome → TransportOnly s t := fun hc => by
    obtain ⟨_, q, rfl⟩ := execCommand_cases hc h
    exact ⟨rfl, rfl⟩
  cases i with
  | getSync | readSign | setDevice | enterProgmode | leaveProgmode | loadAddress | progPage | readPage =>
    exact .inl (hcommand rfl)
  | tick =>
    rcases execTick_cases h with ⟨hp, h⟩ | ⟨_, _, _, _, rfl⟩ | ⟨_, _, _, _, h⟩ | ⟨_, _, rfl⟩
    · exact .inr (.inr ⟨rfl, hp, h⟩)
    · exact .inl ⟨rfl, rfl⟩
    · exact .inr (.inl (seqOnCmd_of_rxFinish h rfl rfl))
    · exact .inl ⟨rfl, rfl⟩
  | chunk c =>
    rcases (execChunk_cases h).2 with ⟨_, h⟩ | ⟨_, h⟩ | ⟨_, rfl⟩
    · exact .inr (.inl (seqOnCmd_of_rxFinish h rfl rfl))
    · exact .inr (.inl (seqOnCmd_of_rxFinish h rfl rfl))
    · exact .inl ⟨rfl, rfl⟩
  | eos => exact .inr (.inl (seqOnCmd_of_rxFinish (execEos_cases h).2 rfl rfl))
  | readFail x => exact .inr (.inl (seqOnCmd_of_rxFinish (execReadFail_cases h).2 rfl rfl))
  | wackOk =>
    obtain ⟨_, rfl⟩ := execWackOk_cases h
    exact .inl ⟨rfl, rfl⟩
  | wackFail x => exact .inr (.inl ⟨_, commandOver s, ⟨rfl, rfl⟩, (execWackFail_cases h).2⟩)
  | startFlash | startSync | startCommand => cases hi

/-! ### Every step keeps TIMELINE, RESULT and the Sync budget -/

/-- The session's invariant speaks of the session registers and of ATTEMPTS alone. -/
theorem SessionInvariant.of_eq {s t : State} (h : SessionInvariant s) (hs : t.session = s.session)
    (ha : t.attempts = s.attempts) : SessionInvariant t := by
  have hmode : t.mode = s.mode := congrArg Session.mode hs
  have hstep : t.flashStep = s.flashStep := congrArg Session.flashStep hs
  have htry : t.syncTry = s.syncTry := congrArg Session.syncTry hs
  have hresult : t.result = s.result := congrArg Session.result hs
  have htimeline : t.timeline = s.timeline := congrArg Session.timeline hs
  constructor
  · rw [hmode, htimeline, hstep]; exact h.passed
  · rw [hmode, hresult]; exact h.no_result
  · rw [hmode, hstep, htry, ha]; exact h.tries

/-- R194: with no operation running nothing is asked of the session. -/
theorem sessionInvariant_of_idle {s : State} (hm : s.mode = .idle) : SessionInvariant s := by
  constructor <;> simp [hm]

/-- The receiver and the transceiver keep the session's invariant. -/
theorem SessionInvariant.of_transportOnly {s t : State} (h : SessionInvariant s)
    (ht : TransportOnly s t) : SessionInvariant t :=
  h.of_eq ht.session (congrArg Latches.attempts ht.latches)

/-- R192: a flash whose step passed records it, and begins the next Sync with the first attempt. -/
theorem sessionInvariant_of_stepOk {s t : State} (hs : SessionInvariant s) (hm : s.mode = .flash)
    (h : stepOk s = .next t) : SessionInvariant t := by
  rcases stepOk_begins h with ⟨q, u, hu, rfl⟩ | rfl
  · have hmode : u.mode = .flash := hu.mode.trans hm
    exact
      { passed := fun _ => hu.passed (hs.passed hm)
        no_result := fun _ => hu.result.trans (hs.no_result (by simp [hm]))
        tries := fun hsync => by
          have htry : u.syncTry = 1 := hu.tries (by simpa [hmode] using hsync)
          simp [htry] }
  · exact sessionInvariant_of_idle rfl

/-- R184: a failed attempt below the budget is followed by the next one. -/
theorem sessionInvariant_nextAttempt {e : Err} {s : State} (hs : SessionInvariant s)
    (hlt : s.syncTry < syncBudget s) : SessionInvariant (issueGetSync (nextAttempt (attemptFailed e s))) where
  passed := hs.passed
  no_result := hs.no_result
  tries _ := ⟨Nat.succ_pos _, hlt⟩

/-- R183: the result of a command keeps the session's invariant. -/
theorem sessionInvariant_of_seqOnCmd {r : Reply} {s t : State} (hs : SessionInvariant s)
    (h : seqOnCmd r s = .next t) : SessionInvariant t := by
  cases r with
  | ok buf =>
    rcases seqOnCmd_ok_cases h with ⟨_, rfl⟩ | ⟨hm, _, _, h⟩ | ⟨hm, _, h⟩ | ⟨_, _, _, rfl⟩ |
      ⟨_, _, _, rfl⟩ | ⟨_, _, _, rfl⟩ | ⟨_, _, _, _, rfl⟩ | ⟨_, _, _, _, rfl⟩
    · exact sessionInvariant_of_idle rfl
    · exact sessionInvariant_of_stepOk hs hm h
    · exact sessionInvariant_of_stepOk (s := keepSignature buf s) (hs.of_eq rfl rfl) hm h
    · exact hs.of_eq rfl rfl
    · exact hs.of_eq rfl rfl
    · exact hs.of_eq rfl rfl
    · exact hs.of_eq rfl rfl
    · exact sessionInvariant_of_idle rfl
  | err e =>
    rcases seqOnCmd_err_cases h with ⟨_, rfl⟩ | ⟨_, hlt, rfl⟩ | ⟨_, _, rfl⟩ | ⟨_, _, _, rfl⟩ | ⟨_, _, _, rfl⟩
    · exact sessionInvariant_of_idle rfl
    · exact sessionInvariant_nextAttempt hs hlt
    · exact sessionInvariant_of_idle rfl
    · exact sessionInvariant_of_idle rfl
    · exact sessionInvariant_of_idle rfl

/-- R209 to R211: a tick of the settle delay keeps the session's invariant. -/
theorem sessionInvariant_of_settleTick {s t : State} (hs : SessionInvariant s) (hm : s.mode = .flash)
    (h : settleTick s = .next t) : SessionInvariant t := by
  rcases settleTick_cases h with ⟨_, rfl⟩ | ⟨_, _, rfl⟩ | ⟨_, _, h⟩
  · exact hs.of_eq rfl rfl
  · exact hs.of_eq rfl rfl
  · exact sessionInvariant_of_stepOk (s := leavePage (leavePage (countSettle s))) (hs.of_eq rfl rfl) hm h

/-- R180: a new session has passed no step and makes its first Sync attempt. -/
theorem sessionInvariant_of_exec_startFlash {img : Bytes} {prof : Profile} {opts : Options} {s t : State}
    (h : exec (.startFlash img prof opts) s = .next t) : SessionInvariant t := by
  obtain ⟨_, _, rfl⟩ := execStartFlash_cases h
  constructor <;> simp [syncBegin, issueGetSync, FlashStep.before]

/-- R42, R40, R184: every instruction keeps the session's invariant. -/
theorem sessionInvariant_of_exec {i : Instr} {s t : State} (hc : ControlOk s) (hs : SessionInvariant s)
    (h : exec i s = .next t) : SessionInvariant t := by
  cases hi : isStart i with
  | false =>
    rcases exec_cases_of_not_start hi h with ht | ⟨r, u, hu, h⟩ | ⟨_, hp, h⟩
    · exact hs.of_transportOnly ht
    · exact sessionInvariant_of_seqOnCmd (hs.of_transportOnly hu) h
    · exact sessionInvariant_of_settleTick hs (hc.of_settle hp).1 h
  | true =>
    cases i with
    | startFlash img prof opts => exact sessionInvariant_of_exec_startFlash h
    | startSync a b =>
      obtain ⟨_, rfl⟩ := execStartSync_cases h
      constructor <;> simp [syncBegin, issueGetSync]
    | startCommand q =>
      obtain ⟨_, rfl⟩ := execStartCommand_cases h
      constructor <;> simp
    | _ => cases hi

/-- Settles O51: outside the START events the session is the sequencer's alone, and the sequencer appends a
step to TIMELINE exactly when it begins the next. -/
theorem stepKeepsSession : Obligations.StepKeepsSession := by
  intro s t hq hs h
  obtain ⟨_, i, rest, _, h⟩ := step_cases h
  exact sessionInvariant_of_exec (hq.consumed rest).control (hs.of_eq rfl rfl) h

/-! ### Which event may write the input latches -/

/-- R45: an event that begins no operation writes no input latch. -/
theorem latches_of_exec_of_not_start {i : Instr} {s t : State} (hi : isStart i = false)
    (h : exec i s = .next t) : t.latches = s.latches := by
  rcases exec_cases_of_not_start hi h with ht | ⟨r, u, hu, h⟩ | ⟨_, _, h⟩
  · exact ht.latches
  · exact (sequencerKeeps_of_seqOnCmd h).latches.trans hu.latches
  · exact (sequencerKeeps_of_settleTick h).latches

/-- Settles O52: the STARTs by what they write, the other events because they write no input latch. -/
theorem inputLatchesFrame : Obligations.InputLatchesFrame := by
  intro s t i h
  cases i with
  | startFlash img prof opts =>
    obtain ⟨_, _, rfl⟩ := execStartFlash_cases h
    exact ⟨by simp [syncBegin, issueGetSync], by simp [syncBegin, issueGetSync],
      fun hne => absurd rfl (hne img prof opts)⟩
  | startSync a b =>
    obtain ⟨_, rfl⟩ := execStartSync_cases h
    exact ⟨rfl, rfl, fun _ => ⟨rfl, fun _ => rfl, rfl, fun hne => absurd rfl (hne a b), nofun⟩⟩
  | startCommand q =>
    obtain ⟨_, rfl⟩ := execStartCommand_cases h
    exact ⟨rfl, rfl, fun _ => ⟨rfl, fun _ => rfl, rfl, fun _ => ⟨rfl, rfl⟩, nofun⟩⟩
  | _ =>
    have hl := latches_of_exec_of_not_start rfl h
    have himg : t.image = s.image := congrArg Latches.image hl
    exact ⟨congrArg Latches.params hl, congrArg Latches.inq hl, fun _ =>
      ⟨by rw [himg], fun a => by rw [himg], congrArg Latches.profile hl,
        fun _ => ⟨congrArg Latches.attempts hl, congrArg Latches.timeout hl⟩,
        fun _ => congrArg Latches.debug hl⟩⟩

/-! ### Which event may write which receiver register -/

/-- R45: a START writes no receiver register. -/
theorem receiver_of_exec_start {i : Instr} {s t : State} (hi : isStart i = true)
    (h : exec i s = .next t) : t.receiver = s.receiver := by
  cases i with
  | startFlash img prof opts =>
    obtain ⟨_, _, rfl⟩ := execStartFlash_cases h
    simp [State.receiver, syncBegin, issueGetSync]
  | startSync a b =>
    obtain ⟨_, rfl⟩ := execStartSync_cases h
    rfl
  | startCommand q =>
    obtain ⟨_, rfl⟩ := execStartCommand_cases h
    rfl
  | _ => cases hi

/-- R116: the end of a receive stops the receiver and writes no other of its registers. -/
theorem receiver_of_rxFinish {r : Reply} {s t : State} (h : rxFinish r s = .next t) :
    t.receiver = { s.receiver with active := false, pend := false } :=
  (sequencerKeeps_of_rxFinish h).receiver

/-- R119: a TICK may stop the receiver, and counts RX_EL. -/
theorem receiver_of_exec_tick {s t : State} (h : exec .tick s = .next t) :
    ∃ a p n, t.receiver = { s.receiver with active := a, pend := p, elapsed := n } := by
  rcases execTick_cases h with ⟨_, h⟩ | ⟨_, _, _, _, rfl⟩ | ⟨_, _, _, _, h⟩ | ⟨_, _, rfl⟩
  · exact ⟨_, _, _, (sequencerKeeps_of_settleTick h).receiver⟩
  · exact ⟨_, _, _, rfl⟩
  · have hr := receiver_of_rxFinish h
    exact ⟨_, _, _, hr⟩
  · exact ⟨_, _, _, rfl⟩

/-- R111 to R115: a CHUNK may stop the receiver, and writes RX_SYNCED, RX_BUF and, after an overflow, the free
counter. -/
theorem receiver_of_exec_chunk {c : Bytes} {s t : State} (h : exec (.chunk c) s = .next t) :
    ∃ a p y b n, t.receiver =
      { s.receiver with active := a, pend := p, synced := y, buf := b, freeCtr := n } := by
  rcases (execChunk_cases h).2 with ⟨_, h⟩ | ⟨_, h⟩ | ⟨_, rfl⟩
  · have hr := receiver_of_rxFinish h
    exact ⟨_, _, _, _, _, hr⟩
  · have hr := receiver_of_rxFinish h
    exact ⟨_, _, _, _, _, hr⟩
  · exact ⟨_, _, _, _, _, rfl⟩

/-- Settles O53: for each event, the lemma that says what it makes of the receiver's registers. -/
theorem receiverRegistersFrame : Obligations.ReceiverRegistersFrame := by
  intro s t i h hack
  cases i with
  | getSync | readSign | setDevice | enterProgmode | leaveProgmode | loadAddress | progPage | readPage =>
    obtain ⟨_, q, rfl⟩ := execCommand_cases (k := s.params.k) rfl h
    simp
  | startFlash | startSync | startCommand =>
    have hr := receiver_of_exec_start rfl h
    simp only [State.receiver, Receiver.mk.injEq] at hr
    simp [hr]
  | wackFail x =>
    have hr : t.receiver = s.receiver := (sequencerKeeps_of_seqOnCmd (execWackFail_cases h).2).receiver
    simp only [State.receiver, Receiver.mk.injEq] at hr
    simp [hr]
  | wackOk => exact absurd rfl hack
  | tick =>
    obtain ⟨_, _, _, hr⟩ := receiver_of_exec_tick h
    simp only [State.receiver, Receiver.mk.injEq] at hr
    simp [hr]
  | chunk c =>
    obtain ⟨_, _, _, _, _, hr⟩ := receiver_of_exec_chunk h
    simp only [State.receiver, Receiver.mk.injEq] at hr
    simp [hr]
  | eos =>
    have hr := receiver_of_rxFinish (execEos_cases h).2
    simp only [State.receiver, Receiver.mk.injEq] at hr
    simp [hr]
  | readFail x =>
    have hr := receiver_of_rxFinish (execReadFail_cases h).2
    simp only [State.receiver, Receiver.mk.injEq] at hr
    simp [hr]

/-! ### Reset -/

/-- Settles O1: R48's table, register by register. -/
theorem resetRegisterValues : Obligations.ResetRegisterValues := by
  unfold Obligations.ResetRegisterValues
  and_intros <;> rfl

/-- R48, R30, R43: the reset state is quiescent: no operation runs and the receiver is quiet. -/
theorem quiescent_reset : Quiescent State.reset :=
  ReceiverQuiet.quiescent ⟨rfl, rfl, nofun⟩ ⟨rfl, nofun⟩

/-- Settles O3: at reset no operation runs, no page phase is entered and no command is in flight, so nothing is
asked of the cursor, the command or the session. -/
theorem resetMeetsInvariants : Obligations.ResetMeetsInvariants :=
  ⟨quiescent_reset, ⟨nofun, nofun, nofun, nofun⟩, ⟨nofun, nofun, nofun⟩, sessionInvariant_of_idle rfl, nofun⟩

end Sys2Proof.Machine
end

section
/-!
SUPPORT and PROOFS. The cursor and the slice of spec/44_paged_transfer.md R200 to R211 stay inside the image
space (R60). A page phase is entered in three places only: the begin of an iteration (R202), the fetch of the
slice (R203) and the advance (R208); each establishes what the invariant asks of that phase. Everything else
leaves the page registers alone, counts the settle delay (R209), or leaves the page phase.
-/

namespace Sys2Proof.Machine

/-! ### What the pages' invariant speaks of -/

/-- R25, R27 to R29: the registers of the page loop, with the parameters and the input latches that name its
slices (R203, R204). -/
structure Pages where
  params   : Params
  image    : Bytes
  profile  : Profile
  pg       : Pg
  pageAddr : Nat
  wordAddr : Nat
  slice    : Bytes
  settle   : Nat

/-- The page registers of a state. -/
def State.pages (s : State) : Pages :=
  ⟨s.params, s.image, s.profile, s.pg, s.pageAddr, s.wordAddr, s.slice, s.settle⟩

/-- The pages' invariant speaks of the page registers alone. -/
theorem PageInvariant.of_eq {s t : State} (h : PageInvariant s) (hp : t.pages = s.pages) :
    PageInvariant t := by
  simp only [State.pages, Pages.mk.injEq] at hp
  obtain ⟨hparams, himage, hprofile, hpg, haddr, hword, hslice, hsettle⟩ := hp
  have hcurrent : currentSlice t = currentSlice s := by
    simp only [currentSlice, hparams, himage, hprofile, haddr]
  constructor
  · rw [hpg, haddr, himage]; exact h.load_inside
  · rw [hpg, haddr, himage, hslice, hcurrent, hprofile]; exact h.page_inside
  · rw [hpg, haddr, himage, hsettle]; exact h.settle_inside
  · rw [hpg, hword, haddr]; exact h.word

/-- R192, R185: the end of a step and the begin of the next write no page register. -/
theorem pages_nextStep (st : FlashStep) (s : State) :
    (enterStep st (stepSucceeded s)).pages = s.pages := by
  simp [State.pages]

/-! ### The slice of the current iteration -/

/-- R60, R204: the slice of a cursor inside the image ends inside the image. -/
theorem add_currentSlice_length_le {s : State} (h : s.pageAddr < s.image.length) :
    s.pageAddr + (currentSlice s).length ≤ s.image.length := by
  have hend := clipEnd_le s.params.clipRule (p := s.profile.p) h
  rw [currentSlice_length s h]
  omega

/-- R204: the slice of a cursor inside the image is at most a page. -/
theorem currentSlice_length_le_page {s : State} (h : s.pageAddr < s.image.length) :
    (currentSlice s).length ≤ s.profile.p := by
  have hpage := clipEnd_le_page s.params.clipRule s.image.length s.profile.p s.pageAddr
  rw [currentSlice_length s h]
  omega

/-! ### The operations that write a page register -/

/-- R191, R194, R201: outside the page phases nothing is asked of the cursor. -/
theorem pageInvariant_of_pg_none {s : State} (h : s.pg = .none) : PageInvariant s := by
  constructor <;> simp [h]

/-- R201, R202: an iteration begins with a cursor inside the image, and with the cursor's word address. -/
theorem pageInvariant_loadAddress {s : State} (h : s.pageAddr < s.image.length) :
    PageInvariant (loadAddress s) where
  load_inside _ := h
  page_inside := nofun
  settle_inside := nofun
  word _ := rfl

/-- R203: the slice fetched for a cursor inside the image lies inside the image. -/
theorem PageInvariant.fetchSlice {s : State} (h : PageInvariant s) (hp : s.pg = .loadAddr) :
    PageInvariant (fetchSlice s) where
  load_inside := nofun
  page_inside _ :=
    have hin := h.load_inside hp
    ⟨hin, rfl, add_currentSlice_length_le hin, currentSlice_length_le_page hin⟩
  settle_inside := nofun
  word _ := h.word (.inl hp)

/-- R208: the cursor advances to the end of its slice, and the settle delay has its four ticks before it. -/
theorem PageInvariant.advance {s : State} (h : PageInvariant s) (hp : s.pg = .pageCmd) :
    PageInvariant (advance s) where
  load_inside := nofun
  page_inside := nofun
  settle_inside _ :=
    have ⟨_, _, hend, _⟩ := h.page_inside hp
    ⟨hend, by simp [Config.settleTicks]⟩
  word := nofun

/-- R209: a tick before the last one of the settle delay only counts. -/
theorem PageInvariant.countSettle {s : State} (h : PageInvariant s)
    (hlt : s.settle + 1 < Config.settleTicks) : PageInvariant (countSettle s) where
  load_inside := h.load_inside
  page_inside := h.page_inside
  settle_inside hp := ⟨(h.settle_inside hp).1, hlt⟩
  word := h.word

/-! ### The sequencer -/

/-- R192: the end of a step leaves the page registers alone, leaves the page phase, or begins the first
iteration on an image that is not empty. -/
theorem pageInvariant_of_stepOk {s t : State} (hs : PageInvariant s) (h : stepOk s = .next t) :
    PageInvariant t := by
  rcases stepOk_cases h with ⟨_, rfl⟩ | ⟨_, rfl⟩ | ⟨_, rfl⟩ | ⟨_, rfl⟩ | ⟨_, rfl⟩ | ⟨_, hl, rfl⟩ |
    ⟨_, _, rfl⟩ | ⟨_, hl, rfl⟩ | ⟨_, _, rfl⟩ | ⟨_, rfl⟩ | ⟨_, rfl⟩
  · exact hs.of_eq (pages_nextStep .sync2 s)
  · exact hs.of_eq (pages_nextStep .sync3 s)
  · exact hs.of_eq (pages_nextStep .signature s)
  · exact hs.of_eq (pages_nextStep .setOptions s)
  · exact hs.of_eq (pages_nextStep .enterProgmode s)
  · exact pageInvariant_loadAddress (by simpa using hl)
  · exact pageInvariant_of_pg_none (by simp [verifyPassed, beginExitProgmode, issueLeaveProgmode])
  · exact pageInvariant_loadAddress (by simpa using hl)
  · exact pageInvariant_of_pg_none (by simp [verifyPassed, beginExitProgmode, issueLeaveProgmode])
  · exact hs.of_eq (pages_nextStep .exitProgmode s)
  · exact pageInvariant_of_pg_none rfl

/-- R183, R203: the result of a command fetches the slice, advances over it, or is the end of a step, of an
attempt or of the operation. -/
theorem pageInvariant_of_seqOnCmd {r : Reply} {s t : State} (hs : PageInvariant s)
    (h : seqOnCmd r s = .next t) : PageInvariant t := by
  cases r with
  | ok buf =>
    rcases seqOnCmd_ok_cases h with ⟨_, rfl⟩ | ⟨_, _, _, h⟩ | ⟨_, _, h⟩ | ⟨_, _, hp, rfl⟩ |
      ⟨_, _, hp, rfl⟩ | ⟨_, _, hp, rfl⟩ | ⟨_, _, hp, _, rfl⟩ | ⟨_, _, _, _, rfl⟩
    · exact pageInvariant_of_pg_none rfl
    · exact pageInvariant_of_stepOk hs h
    · exact pageInvariant_of_stepOk (s := keepSignature buf s) (hs.of_eq rfl) h
    · exact (hs.fetchSlice hp).of_eq rfl
    · exact (hs.fetchSlice hp).of_eq rfl
    · exact hs.advance hp
    · exact hs.advance hp
    · exact pageInvariant_of_pg_none rfl
  | err e =>
    rcases seqOnCmd_err_cases h with ⟨_, rfl⟩ | ⟨_, _, rfl⟩ | ⟨_, _, rfl⟩ | ⟨_, _, _, rfl⟩ | ⟨_, _, _, rfl⟩
    · exact pageInvariant_of_pg_none rfl
    · exact hs.of_eq rfl
    · exact pageInvariant_of_pg_none rfl
    · exact pageInvariant_of_pg_none rfl
    · exact pageInvariant_of_pg_none rfl

/-- R209 to R211: a tick of the settle delay counts, begins an iteration with a cursor inside the image, or
ends the step. -/
theorem pageInvariant_of_settleTick {s t : State} (hs : PageInvariant s) (h : settleTick s = .next t) :
    PageInvariant t := by
  rcases settleTick_cases h with ⟨hlt, rfl⟩ | ⟨_, hl, rfl⟩ | ⟨_, _, h⟩
  · exact hs.countSettle hlt
  · exact pageInvariant_loadAddress hl
  · exact pageInvariant_of_stepOk (pageInvariant_of_pg_none rfl) h

/-! ### Every step -/

/-- R116: the end of a receive writes the page registers only through the sequencer. -/
theorem pageInvariant_of_rxFinish {r : Reply} {s u t : State} (hs : PageInvariant s)
    (h : rxFinish r u = .next t) (hu : u.pages = s.pages) : PageInvariant t := by
  rw [rxFinish_eq] at h
  exact pageInvariant_of_seqOnCmd (s := commandOver (receiverOff u)) (hs.of_eq hu) h

/-- R60, R203, R208: every instruction keeps the pages' invariant. -/
theorem pageInvariant_of_exec {i : Instr} {s t : State} (hs : PageInvariant s) (h : exec i s = .next t) :
    PageInvariant t := by
  cases i with
  | getSync | readSign | setDevice | enterProgmode | leaveProgmode | loadAddress | progPage | readPage =>
    obtain ⟨_, q, rfl⟩ := execCommand_cases (k := s.params.k) rfl h
    exact hs.of_eq rfl
  | tick =>
    rcases execTick_cases h with ⟨_, h⟩ | ⟨_, _, _, _, rfl⟩ | ⟨_, _, _, _, h⟩ | ⟨_, _, rfl⟩
    · exact pageInvariant_of_settleTick hs h
    · exact hs.of_eq rfl
    · exact pageInvariant_of_rxFinish hs h rfl
    · exact hs
  | chunk c =>
    rcases (execChunk_cases h).2 with ⟨_, h⟩ | ⟨_, h⟩ | ⟨_, rfl⟩
    · exact pageInvariant_of_rxFinish hs h rfl
    · exact pageInvariant_of_rxFinish hs h rfl
    · exact hs.of_eq rfl
  | eos => exact pageInvariant_of_rxFinish hs (execEos_cases h).2 rfl
  | readFail x => exact pageInvariant_of_rxFinish hs (execReadFail_cases h).2 rfl
  | wackOk =>
    obtain ⟨_, rfl⟩ := execWackOk_cases h
    exact hs.of_eq rfl
  | wackFail x =>
    exact pageInvariant_of_seqOnCmd (s := commandOver s) (hs.of_eq rfl) (execWackFail_cases h).2
  | startFlash img prof opts =>
    obtain ⟨_, _, rfl⟩ := execStartFlash_cases h
    exact pageInvariant_of_pg_none (by simp [syncBegin, issueGetSync])
  | startSync a b =>
    obtain ⟨_, rfl⟩ := execStartSync_cases h
    exact hs.of_eq rfl
  | startCommand q =>
    obtain ⟨_, rfl⟩ := execStartCommand_cases h
    exact hs.of_eq rfl

/-- Settles O49: instruction by instruction. Whatever enters a page phase establishes what the invariant asks of it, so
the premise that the state is quiescent is not needed. -/
theorem stepKeepsPagesInImage : Obligations.StepKeepsPagesInImage := by
  intro s t _ hs h
  obtain ⟨_, i, rest, _, h⟩ := step_cases h
  exact pageInvariant_of_exec (s := consumed rest s) (hs.of_eq rfl) h

end Sys2Proof.Machine
end

section
/-!
SUPPORT and PROOFS. The two encodings of spec/30_encoding.md. Port records (R96): each operand reader gives
back what its writer wrote, so a record decodes to its instruction. Frames (R82, R85, R86): the opcodes of a
well-formed table are told apart, so a frame decodes to its command and a stream of frames to its commands.
-/

namespace Sys2Proof

/-! ### Operand fields that are read back (R64, R88, R180, R181, R182) -/

/-- Two bytes are read in transmission order. -/
theorem readPair_cons (a b : Byte) (rest : Bytes) : readPair (a :: b :: rest) = some ((a, b), rest) := rfl

/-- R64, R88: counted bytes are read back where sixteen bits hold the count. -/
theorem readCounted_append {d : Bytes} (h : d.length < 2 ^ 16) (rest : Bytes) :
    readCounted (hi8 d.length :: lo8 d.length :: (d ++ rest)) = some (d, rest) := by
  simp [readCounted, readPair_cons, readExact_append (word16_hi8_lo8 h).symm]

/-- R181: attempts and timeout are read back. -/
theorem readNatPair_writeNat (a t : Nat) (rest : Bytes) :
    readNatPair (writeNat a ++ writeNat t ++ rest) = some ((a, t), rest) := by
  simp [readNatPair, readNat_writeNat]

/-- R22: a profile with 20 device parameters is read back from its fields. -/
theorem readProfile_writeProfile {p : Profile} (h : p.wf = true) (rest : Bytes) :
    readProfile (writeProfile p ++ rest) = some (p, rest) := by
  have hlen : p.devparams.length = Config.devparamCount := of_decide_eq_true h
  simp [readProfile, writeProfile, readBytes_writeBytes, readNat_writeNat, readExact_append hlen]

/-- R180: the options of a flash are read back from their fields. -/
theorem readOptions_writeOptions (o : Options) (rest : Bytes) :
    readOptions (writeOptions o ++ rest) = some (o, rest) := by
  simp [readOptions, writeOptions, readNat_writeNat, readBool_writeBool]

/-- R180: image, profile and options are read back. -/
theorem readFlash_write (img : Bytes) {p : Profile} (h : p.wf = true) (o : Options) (rest : Bytes) :
    readFlash (writeBytes img ++ writeProfile p ++ writeOptions o ++ rest) = some ((img, p, o), rest) := by
  simp [readFlash, readBytes_writeBytes, readProfile_writeProfile h, readOptions_writeOptions]

/-- R32, R182: a request is read back from its fields. -/
theorem readRequest_writeRequest (q : Request) (rest : Bytes) :
    readRequest (writeRequest q ++ rest) = some (q, rest) := by
  have hterm (o : Option Byte) (r : Bytes) :
      readOption readByte (writeOption (fun b => [b]) o ++ r) = some (o, r) :=
    readOption_writeOption (fun _ _ => rfl) o r
  simp [readRequest, writeRequest, readForm_writeForm, readByte, readBytes_writeBytes, hterm,
    readOption_writeOption readBytes_writeBytes, readOption_writeOption readNat_writeNat, readNat_writeNat]

/-! ### Port records (R96) -/

/-- Operands that are read give the instruction they belong to. -/
theorem withOperands_some {α : Type} (f : α → Instr) {o : Option (α × Bytes)} {a : α} {r : Bytes}
    (h : o = some (a, r)) : withOperands f o = .ok (f a, r) := by
  rw [h]; rfl

/-- R165: LOAD_ADDRESS's operand is read back, low byte first. -/
theorem decode_encode_loadAddress {w : Nat} (h : w < 2 ^ 16) (rest : Bytes) :
    decode (encode (.loadAddress w) ++ rest) = .ok (.loadAddress w, rest) := by
  have hd : decode (encode (.loadAddress w) ++ rest) = .ok (.loadAddress (word16 (hi8 w) (lo8 w)), rest) := rfl
  rw [hd, word16_hi8_lo8 h]

/-- R167: READ_PAGE's operand is read back, high byte first. -/
theorem decode_encode_readPage {c : Nat} (h : c < 2 ^ 16) (rest : Bytes) :
    decode (encode (.readPage c) ++ rest) = .ok (.readPage c, rest) := by
  have hd : decode (encode (.readPage c) ++ rest) = .ok (.readPage (word16 (hi8 c) (lo8 c)), rest) := rfl
  rw [hd, word16_hi8_lo8 h]

/-- Settles O8: the first byte selects the row's field reader, which gives the operands back. -/
theorem portRecordRoundTrip : Obligations.PortRecordRoundTrip := by
  intro i rest h
  cases i with
  | getSync | readSign | enterProgmode | leaveProgmode | tick | eos | wackOk => rfl
  | setDevice d => exact withOperands_some .setDevice (readExact_append (of_decide_eq_true h) rest)
  | loadAddress w => exact decode_encode_loadAddress (of_decide_eq_true h) rest
  | progPage d => exact withOperands_some .progPage (readCounted_append (of_decide_eq_true h) rest)
  | readPage c => exact decode_encode_readPage (of_decide_eq_true h) rest
  | chunk c => exact withOperands_some .chunk (readBytes_writeBytes c rest)
  | readFail x => exact withOperands_some (fun n => .readFail ⟨n⟩) (readNat_writeNat x.token rest)
  | wackFail x => exact withOperands_some (fun n => .wackFail ⟨n⟩) (readNat_writeNat x.token rest)
  | startFlash img p o =>
    exact withOperands_some (fun a => .startFlash a.1 a.2.1 a.2.2) (readFlash_write img h o rest)
  | startSync a t => exact withOperands_some (fun a => .startSync a.1 a.2) (readNatPair_writeNat a t rest)
  | startCommand q => exact withOperands_some .startCommand (readRequest_writeRequest q rest)

/-! ### The constant table (R80) -/

/-- R80: what makes a constant table well-formed. -/
theorem KTable.wf_iff (k : KTable) : k.wf = true ↔ k.ok0 = k.sof ∧ k.opcodes.Nodup := by
  simp [KTable.wf]

/-- R80: in a well-formed table an opcode differs from each one listed before it. -/
theorem KTable.opcodes_ne_earlier {k : KTable} (h : k.wf = true) :
    k.opcodes.Pairwise fun a b => b ≠ a :=
  (k.wf_iff.mp h).2.imp Ne.symm

/-! ### Frames of the eight commands (R82, R85, R86) -/

/-- R82, R85: a frame is the command's opcode, its payload and the terminator. -/
theorem encodeFrame_eq_some {k : KTable} {i : Instr} {f : Bytes} :
    encodeFrame k i = some f ↔
      ∃ op payload, i.wireParts k = some (op, payload) ∧ f = op :: (payload ++ [k.eop]) := by
  unfold encodeFrame
  rcases i.wireParts k with _ | ⟨op, payload⟩ <;> simp [eq_comm]

/-- R82: no frame is empty. -/
theorem encodeFrame_ne_nil {k : KTable} {i : Instr} {f : Bytes} (h : encodeFrame k i = some f) : f ≠ [] := by
  obtain ⟨op, payload, -, rfl⟩ := encodeFrame_eq_some.mp h
  simp

/-- R88: a count and the sub-command byte after it are read back. -/
theorem readCountMem_cons (k : KTable) {n : Nat} (h : n < 2 ^ 16) (r : Bytes) :
    readCountMem k (hi8 n :: lo8 n :: k.memtype :: r) = some (n, r) := by
  simp [readCountMem, readPair_cons, expectByte, word16_hi8_lo8 h]

/-- R86: under a well-formed table the first frame of a stream is decoded to its command, whatever
follows. -/
theorem decodeFrame_encodeFrame {k : KTable} (hk : k.wf = true) {i : Instr} {f : Bytes} (hi : i.wf = true)
    (hf : encodeFrame k i = some f) (rest : Bytes) : decodeFrame k (f ++ rest) = .ok (i, rest) := by
  have hne := KTable.opcodes_ne_earlier hk
  simp only [KTable.opcodes, List.pairwise_cons, List.mem_cons, forall_eq_or_imp] at hne
  obtain ⟨op, payload, hp, rfl⟩ := encodeFrame_eq_some.mp hf
  cases i with
  | tick | chunk | eos | readFail | wackOk | wackFail | startFlash | startSync | startCommand => cases hp
  | getSync | readSign | enterProgmode | leaveProgmode =>
    cases hp
    simp [decodeFrame, hne, closeFrame_eop]
  | setDevice d =>
    cases hp
    simp [decodeFrame, hne, readExact_append (of_decide_eq_true hi), closeFrame_eop]
  | loadAddress w =>
    cases hp
    simp [decodeFrame, hne, readPair_cons, word16_hi8_lo8 (of_decide_eq_true hi), closeFrame_eop]
  | progPage d =>
    cases hp
    simp [decodeFrame, hne, readCountMem_cons k (of_decide_eq_true hi), readExact_append rfl, closeFrame_eop]
  | readPage c =>
    cases hp
    simp [decodeFrame, hne, readCountMem_cons k (of_decide_eq_true hi), closeFrame_eop]

/-- R86: a stream is split where its first frame ends. -/
theorem splitFramesFuel_append {k : KTable} {i : Instr} {is : List Instr} {f rest : Bytes} {n : Nat}
    (hne : f ≠ []) (hf : decodeFrame k (f ++ rest) = .ok (i, rest))
    (hrest : splitFramesFuel k n rest = some is) : splitFramesFuel k (n + 1) (f ++ rest) = some (i :: is) := by
  obtain ⟨b, r, rfl⟩ := List.exists_cons_of_ne_nil hne
  rw [List.cons_append] at hf ⊢
  simp [splitFramesFuel, hf, hrest]

/-- R86: a stream of frames is split into its commands by as much fuel as it has bytes. -/
theorem splitFramesFuel_flatten {k : KTable} (hk : k.wf = true) {is : List Instr} {fs : List Bytes}
    {fuel : Nat} (hi : ∀ i ∈ is, i.wf = true) (hfs : is.map (encodeFrame k) = fs.map some)
    (hfuel : fs.flatten.length ≤ fuel) : splitFramesFuel k fuel fs.flatten = some is := by
  induction is generalizing fs fuel with
  | nil =>
    obtain rfl : fs = [] := List.map_eq_nil_iff.mp hfs.symm
    cases fuel <;> rfl
  | cons i is ih =>
    rw [List.forall_mem_cons] at hi
    cases fs with
    | nil => cases hfs
    | cons f fs =>
      rw [List.map_cons, List.map_cons, List.cons.injEq] at hfs
      obtain ⟨hf, hfs⟩ := hfs
      have hne := encodeFrame_ne_nil hf
      have hpos := List.length_pos_iff.mpr hne
      rw [List.flatten_cons, List.length_append] at hfuel
      obtain ⟨n, rfl⟩ : ∃ n, fuel = n + 1 := ⟨fuel - 1, by omega⟩
      exact splitFramesFuel_append hne (decodeFrame_encodeFrame hk hi.1 hf _) (ih hi.2 hfs (by omega))

/-- Settles O9: frame by frame, for the lengths along the commands, for the stream along the list. -/
theorem transmitStreamSplits : Obligations.TransmitStreamSplits := by
  intro k hk
  refine ⟨fun i f hi hf => ?_, fun is fs hi hfs => splitFramesFuel_flatten hk hi hfs le_rfl⟩
  obtain ⟨op, payload, hp, rfl⟩ := encodeFrame_eq_some.mp hf
  cases i with
  | tick | chunk | eos | readFail | wackOk | wackFail | startFlash | startSync | startCommand => cases hp
  | getSync | readSign | enterProgmode | leaveProgmode | loadAddress | readPage => cases hp; rfl
  | setDevice d =>
    have hd : d.length = 20 := of_decide_eq_true hi
    cases hp
    simp [hd]
  | progPage d =>
    cases hp
    simp only [List.length_cons, List.length_append, List.length_nil]
    omega

/-! ### Words of the spec -/

/-- Settles O7: the decoders are run on each word. -/
theorem specWordsDecode : Obligations.SpecWordsDecode := by
  unfold Obligations.SpecWordsDecode
  and_intros <;> rfl

end Sys2Proof
end

section
/-!
SUPPORT and PROOFS. Where a step exists. The port refuses ill-formed tables (R80) and reserved tags (R96); an
instruction that is not enabled is refused (R98, R140); a wire command that is enabled writes its frame (R85);
and every enabled event of a quiescent state has a step, because the sequencer has a rule at every position of
R30's table (R183).
-/

namespace Sys2Proof.Machine

/-! ### Refusals of the port (R80, R96) -/

/-- R80: a machine whose table is not well-formed has no step. -/
theorem step_of_not_wf {s : State} (h : ¬ s.params.k.wf = true) : step s = .refused .illFormedTable :=
  if_neg h

/-- Settles O5: either way of being ill-formed contradicts `KTable.wf`. -/
theorem illFormedTableHasNoStep : Obligations.IllFormedTableHasNoStep := by
  intro s h
  refine step_of_not_wf fun hk => ?_
  obtain ⟨hok, hnodup⟩ := s.params.k.wf_iff.mp hk
  rcases h with h | ⟨a, b, hab, hb, heq⟩
  · exact h hok
  · exact List.nodup_iff_getElem?_ne_getElem?.mp hnodup a b hab hb heq

/-- R96: a reserved tag is refused whatever follows it. -/
theorem decode_reservedTag {tag : Nat} (h : tag = 6 ∨ tag = 7 ∨ (11 ≤ tag ∧ tag ≤ 15)) (rest : Bytes) :
    decode (BitVec.ofNat 8 tag :: rest) = .error (.reservedTag tag) := by
  rcases h with rfl | rfl | ⟨hlo, hhi⟩
  · rfl
  · rfl
  · interval_cases tag <;> rfl

/-- Settles O6: the decoder rejects the tag, and the step refuses what the decoder rejects. -/
theorem reservedTagsRefused : Obligations.ReservedTagsRefused := by
  intro s tag rest hk htag hinq
  have hd : decode s.inq = .error (.reservedTag tag) := hinq ▸ decode_reservedTag htag rest
  exact step_of_decode_error hk hd

/-! ### What is not enabled is refused (R98, R140) -/

/-- R98: where an instruction is enabled its meaning runs. -/
theorem whenEnabled_of_enabled {i : Instr} {s : State} {f : State → Res} (h : enabled i s = true) :
    whenEnabled i s f = f s := if_pos h

/-- R98: where an instruction is not enabled there is no step. -/
theorem whenEnabled_of_not_enabled {i : Instr} {s : State} {f : State → Res} (h : enabled i s = false) :
    whenEnabled i s f = .refused .notEnabled := if_neg (by simp [h])

/-- R98, R140: a well-formed instruction that is not enabled is refused. -/
theorem exec_of_not_enabled {i : Instr} {s : State} (hi : i.wf = true) (h : enabled i s = false) :
    exec i s = .refused .notEnabled := by
  cases i with
  | setDevice d => exact (if_pos (of_decide_eq_true hi)).trans (whenEnabled_of_not_enabled h)
  | startFlash img prof opts => exact (if_pos hi).trans (whenEnabled_of_not_enabled h)
  | _ =>
    unfold exec
    exact whenEnabled_of_not_enabled h

/-- R140: an instruction with a frame is a wire command, enabled where a command may be issued. -/
theorem enabled_of_encodeFrame {i : Instr} {k : KTable} (h : (encodeFrame k i).isSome) (s : State) :
    enabled i s = canIssue s := by
  cases i with
  | getSync | readSign | setDevice | enterProgmode | leaveProgmode | loadAddress | progPage | readPage => rfl
  | _ => cases h

/-- Settles O31: each input is refused because its condition of R98 fails. -/
theorem inputsNotEnabledHaveNoStep : Obligations.InputsNotEnabledHaveNoStep := by
  intro s
  refine ⟨fun hpend => ?_, fun htx => ?_, fun hmode => ?_, fun htx i k hi hf => ?_⟩
  · exact ⟨fun _ => exec_of_not_enabled rfl hpend, exec_of_not_enabled rfl hpend,
      fun _ => exec_of_not_enabled rfl hpend⟩
  · have hwriting : decide (s.tx = .writing) = false := decide_eq_false htx
    exact ⟨exec_of_not_enabled rfl hwriting, fun _ => exec_of_not_enabled rfl hwriting⟩
  · have hidle : decide (s.mode = .idle) = false := decide_eq_false hmode
    exact ⟨fun _ _ _ hprof => exec_of_not_enabled hprof hidle, fun _ _ => exec_of_not_enabled rfl hidle,
      fun _ => exec_of_not_enabled rfl hidle⟩
  · have hissue : canIssue s = false := by simp [canIssue, htx]
    exact exec_of_not_enabled hi ((enabled_of_encodeFrame hf s).trans hissue)

/-! ### A wire command writes its frame (R85, R142) -/

/-- R140: a wire command's next state is the issue of its request. -/
theorem eq_cmdIssue_of_whenEnabled {i : Instr} {s t : State} {q : State → Request}
    (h : whenEnabled i s (fun s => .next (cmdIssue (q s) s)) = .next t) : t = cmdIssue (q s) s := by
  cases (whenEnabled_next.mp h).2
  rfl

/-- R140, R142: the request a wire command issues has the command's opcode and payload, so its frame is the
command's encoding. -/
theorem exec_eq_cmdIssue {s t : State} {i : Instr} {f : Bytes} (hf : encodeFrame s.params.k i = some f)
    (h : exec i s = .next t) : ∃ q, t = cmdIssue q s ∧ buildFrame s.params.k q = f := by
  cases i with
  | setDevice d =>
    cases hf
    by_cases hd : d.length = Config.devparamCount
    · exact ⟨_, eq_cmdIssue_of_whenEnabled ((if_pos hd).symm.trans h), rfl⟩
    · cases (if_neg hd).symm.trans h
  | getSync | readSign | enterProgmode | leaveProgmode | loadAddress | progPage | readPage =>
    cases hf
    exact ⟨_, eq_cmdIssue_of_whenEnabled h, rfl⟩
  | _ => cases hf

/-- Settles O15: the request issued is built from the parts the encoding is built from. -/
theorem commandsWriteTheirEncoding : Obligations.CommandsWriteTheirEncoding := by
  intro s t i f hf h
  obtain ⟨q, rfl, rfl⟩ := exec_eq_cmdIssue hf h
  exact ⟨rfl, rfl⟩

/-! ### Every enabled event of a quiescent state has a step (R98, R30) -/

/-- The outcome is a next state. -/
def HasNext (r : Res) : Prop := ∃ t, r = .next t

/-- A next state is one. -/
@[simp] theorem hasNext_next (t : State) : HasNext (.next t) := ⟨t, rfl⟩

/-- R201: an iteration of the page loop begins, or the loop ends as its end does. -/
theorem hasNext_pageNext {pageDone : State → Res} {s : State} (h : HasNext (pageDone (leavePage s))) :
    HasNext (pageNext pageDone s) := by
  unfold pageNext
  split
  · exact h
  · exact hasNext_next _

/-- R185, R211: Verify begins, and on an empty image ends in EXIT_PROGMODE. -/
theorem hasNext_beginVerify (s : State) : HasNext (beginVerify s) := hasNext_pageNext (hasNext_next _)

/-- R185, R211: Upload begins, and on an empty image ends in Verify. -/
theorem hasNext_beginUpload (s : State) : HasNext (beginUpload s) := hasNext_pageNext (hasNext_beginVerify _)

/-- R192: the end of every step has a rule. -/
theorem hasNext_stepOk {s : State} (h : s.flashStep ≠ .none) : HasNext (stepOk s) := by
  unfold stepOk
  cases hs : s.flashStep with
  | none => exact absurd hs h
  | enterProgmode => exact hasNext_beginUpload _
  | upload => exact hasNext_beginVerify _
  | _ => exact hasNext_next _

/-- R193: the end of a Sync has a rule. -/
theorem hasNext_syncDone {s : State} (r : Reply) (h : s.mode = .syncOp ∨ s.flashStep ≠ .none) :
    HasNext (syncDone r s) := by
  unfold syncDone
  by_cases hm : s.mode = .syncOp
  · cases r <;> simp [hm]
  · cases r with
    | ok buf => simpa [hm] using hasNext_stepOk (h.resolve_left hm)
    | err e => simp [hm]

/-- R184: the result of a Sync attempt has a rule. -/
theorem hasNext_syncOnResult {s : State} (r : Reply) (h : s.mode = .syncOp ∨ s.flashStep ≠ .none) :
    HasNext (syncOnResult r s) := by
  cases r with
  | ok buf => exact hasNext_syncDone (.ok buf) h
  | err e =>
    unfold syncOnResult
    dsimp only
    split
    · exact hasNext_next _
    · exact hasNext_syncDone (s := attemptFailed e s) _ h

/-- R203: the result of a command of the page loop has a rule. -/
theorem hasNext_pageOnCmd {s : State} (r : Reply) (h : s.pg = .loadAddr ∨ s.pg = .pageCmd) :
    HasNext (pageOnCmd r s) := by
  cases r with
  | err e => exact hasNext_next _
  | ok buf =>
    rcases h with h | h <;> simp only [pageOnCmd, h]
    · exact hasNext_next _
    · unfold pageTransferred
      split <;> exact hasNext_next _

/-- R30: where a command is in flight in a paged step, the page loop is at one of its two commands. -/
theorem pg_of_controlListed_writing {s : State} (hl : controlListed s.mode s.flashStep s.pg .writing = true)
    (hm : s.mode = .flash) (hs : s.flashStep.isPaged = true) : s.pg = .loadAddr ∨ s.pg = .pageCmd := by
  cases hp : s.pg <;> simp [controlListed, hm, hs, hp] at hl ⊢

/-- R183: the result of a command of a listed position has a rule. -/
theorem hasNext_seqOnCmd {s : State} (r : Reply)
    (hl : controlListed s.mode s.flashStep s.pg .writing = true) : HasNext (seqOnCmd r s) := by
  unfold seqOnCmd
  cases hm : s.mode with
  | idle => simp [controlListed, hm] at hl
  | cmdOp => cases r <;> exact hasNext_next _
  | syncOp => exact hasNext_syncOnResult r (.inl hm)
  | flash =>
    cases hs : s.flashStep with
    | none => cases hp : s.pg <;> simp [controlListed, hm, hs, hp, FlashStep.isPaged] at hl
    | sync1 | sync2 | sync3 => exact hasNext_syncOnResult r (.inr (by simp [hs]))
    | upload | verify => exact hasNext_pageOnCmd r (pg_of_controlListed_writing hl hm (by rw [hs]; rfl))
    | signature | setOptions | enterProgmode | exitProgmode =>
      cases r with
      | ok buf => exact hasNext_stepOk (by simp [hs])
      | err e => exact hasNext_next _

/-- R116: the end of a receive of a listed position has a rule. -/
theorem hasNext_rxFinish {s : State} (r : Reply)
    (hl : controlListed s.mode s.flashStep s.pg .writing = true) : HasNext (rxFinish r s) :=
  hasNext_seqOnCmd (s := commandOver (receiverOff s)) _ hl

/-- R114: a chunk of a listed position ends the receive or lets it go on. -/
theorem hasNext_compareLength {s : State}
    (hl : controlListed s.mode s.flashStep s.pg .writing = true) : HasNext (compareLength s) := by
  unfold compareLength
  split
  · exact hasNext_rxFinish (s := forgetBuffer s) _ hl
  · split
    · exact hasNext_rxFinish _ hl
    · exact hasNext_next _

/-- R119: a tick of the receive timer at a listed position counts or ends the receive. -/
theorem hasNext_timeoutTick {s : State}
    (hl : controlListed s.mode s.flashStep s.pg .writing = true) : HasNext (timeoutTick s) := by
  unfold timeoutTick
  split
  · exact hasNext_next _
  · split
    · exact hasNext_rxFinish (s := emit .readCancel (readOver (countElapsed s))) _ hl
    · exact hasNext_next _

/-- R209 to R211: a tick of the settle delay of a flash step counts, begins a page, or ends the loop. -/
theorem hasNext_settleTick {s : State} (h : s.flashStep ≠ .none) : HasNext (settleTick s) := by
  unfold settleTick
  split
  · exact hasNext_pageNext (hasNext_stepOk h)
  · exact hasNext_next _

/-- R119, R209: a tick has a step in every quiescent state. -/
theorem hasNext_execTick {s : State} (hq : Quiescent s) : HasNext (exec .tick s) := by
  rw [exec, execTick, whenEnabled_of_enabled rfl]
  split
  · have hpaged := (hq.control.of_settle ‹_›).2.1
    exact hasNext_settleTick fun hs => by simp [hs, FlashStep.isPaged] at hpaged
  · split
    · exact hasNext_timeoutTick (hq.receiving (hq.rx.active_pend ‹_›)).2
    · exact hasNext_next _

/-- Settles O32: a result is handed to the sequencer only at a position of R30's table with a command in
flight, where R183 has a rule; the wire commands are enabled in no quiescent state (log entry 3). -/
theorem enabledInputsHaveAStep : Obligations.EnabledInputsHaveAStep := by
  intro s i hq hi he
  change HasNext (exec i s)
  cases i with
  | getSync | readSign | setDevice | enterProgmode | leaveProgmode | loadAddress | progPage | readPage =>
    have hissue : canIssue s = true := he
    simp [canIssue_of_controlOk hq.control] at hissue
  | tick => exact hasNext_execTick hq
  | chunk c =>
    rw [exec, execChunk, whenEnabled_of_enabled he]
    exact hasNext_compareLength (s := acceptChunk c s) (hq.receiving he).2
  | eos =>
    rw [exec, execEos, whenEnabled_of_enabled he]
    exact hasNext_rxFinish (s := readOver s) _ (hq.receiving he).2
  | readFail x =>
    rw [exec, execReadFail, whenEnabled_of_enabled he]
    exact hasNext_rxFinish (s := readOver s) _ (hq.receiving he).2
  | wackOk =>
    rw [exec, execWackOk, whenEnabled_of_enabled he]
    exact hasNext_next _
  | wackFail x =>
    have htx : s.tx = .writing := of_decide_eq_true he
    rw [exec, execWackFail, whenEnabled_of_enabled he]
    have hl := controlListed_writing hq.control (by simp [htx])
    exact hasNext_seqOnCmd (s := commandOver s) _ hl
  | startFlash img prof opts =>
    have hprof : prof.wf = true := hi
    rw [exec, execStartFlash, if_pos hprof, whenEnabled_of_enabled he]
    exact hasNext_next _
  | startSync a t =>
    rw [exec, execStartSync, whenEnabled_of_enabled he]
    exact hasNext_next _
  | startCommand q =>
    rw [exec, execStartCommand, whenEnabled_of_enabled he]
    exact hasNext_next _

end Sys2Proof.Machine
end

section
/-!
SUPPORT and PROOFS. The frame receiver (spec/40_frame_receiver.md). Each event of a receive is given its whole
outcome once: a CHUNK that leaves the buffer short, completes it or overflows it (R111 to R115), EOS, READ_FAIL
and WACK_FAIL (R117, R118, R144), and a TICK that counts or fires (R119, R120). The events of a receive that
goes on are then one closed form, `delivered`: the bytes of all their chunks as if they had come in one.
-/

namespace Sys2Proof.Machine

/-! ### The marker scan (R112, R113) -/

/-- R112: while unsynchronized, nothing is kept of bytes without the marker. -/
theorem keptBytes_of_not_mem {sof : Byte} {c : Bytes} (h : sof ∉ c) : keptBytes sof false c = [] :=
  List.dropWhile_eq_nil_iff.mpr fun _ hb => bne_iff_ne.mpr (ne_of_mem_of_not_mem hb h)

/-- R112: while unsynchronized, bytes without the marker are dropped from the front. -/
theorem keptBytes_append_of_not_mem {sof : Byte} {pre : Bytes} (h : sof ∉ pre) (c : Bytes) :
    keptBytes sof false (pre ++ c) = keptBytes sof false c :=
  List.dropWhile_append_of_pos fun _ hb => bne_iff_ne.mpr (ne_of_mem_of_not_mem hb h)

/-- R112: bytes that begin with the marker are all kept. -/
@[simp] theorem keptBytes_marker (sof : Byte) (synced : Bool) (rest : Bytes) :
    keptBytes sof synced (sof :: rest) = sof :: rest := by
  cases synced <;> simp [keptBytes]

/-- R112, R113: of two chunks in a row, the second is scanned only where the first left the receiver
unsynchronized. -/
theorem keptBytes_append (sof : Byte) (synced : Bool) (a b : Bytes) :
    keptBytes sof synced (a ++ b) =
      keptBytes sof synced a ++ keptBytes sof (synced || a.contains sof) b := by
  cases synced with
  | true => simp [keptBytes]
  | false =>
    by_cases ha : sof ∈ a
    · obtain ⟨pre, rest, rfl, hpre⟩ := List.eq_append_cons_of_mem ha
      rw [List.append_assoc, keptBytes_append_of_not_mem hpre, keptBytes_append_of_not_mem hpre]
      simp [keptBytes]
    · rw [keptBytes_append_of_not_mem ha, keptBytes_of_not_mem ha]
      simp [ha]

/-- R112: the scan finds the marker where there is one, and keeps `keptBytes`. -/
theorem scan_eq (sof : Byte) (synced : Bool) (c : Bytes) :
    scan sof synced c = (synced || c.contains sof, keptBytes sof synced c) := by
  cases synced with
  | true => rfl
  | false =>
    by_cases hc : sof ∈ c
    · obtain ⟨pre, rest, rfl, hpre⟩ := List.eq_append_cons_of_mem hc
      have hkept : keptBytes sof false (pre ++ sof :: rest) = sof :: rest := by
        simp [keptBytes_append_of_not_mem hpre]
      have hdrop : (pre ++ sof :: rest).dropWhile (fun b => b != sof) = sof :: rest := hkept
      simp [scan, hdrop, hkept]
    · have hkept := keptBytes_of_not_mem hc
      have hdrop : c.dropWhile (fun b => b != sof) = [] := hkept
      simp [scan, hdrop, hkept, hc]

/-- Settles O16: the scan is `keptBytes`, and each case of it is a case of `keptBytes`. -/
theorem markerScan : Obligations.MarkerScan := by
  refine ⟨scan_eq, fun sof c => rfl, fun sof c h => ?_, fun sof pre rest h => ?_⟩
  · simp [scan_eq, keptBytes_of_not_mem h, h]
  · simp [scan_eq, keptBytes_append_of_not_mem h]

/-- R111 to R113: the part of a CHUNK step before the comparison. -/
theorem acceptChunk_eq (c : Bytes) (s : State) :
    acceptChunk c s = readOver (withChunk c s) := by
  simp only [acceptChunk, withChunk, readOver, scan_eq]
  cases hs : s.rxSynced || c.contains s.params.k.sof with
  | true => rfl
  | false =>
    simp only [Bool.or_eq_false_iff, List.contains_eq_mem, decide_eq_false_iff_not] at hs
    simp [hs.1, keptBytes_of_not_mem hs.2]

/-- R112, R113: two chunks in a row are received as one. -/
theorem withChunk_append (a b : Bytes) (s : State) :
    withChunk (a ++ b) s = withChunk b (withChunk a s) := by
  simp [withChunk, keptBytes_append, Bool.or_assoc]

/-- R112, R113: a chunk leaves a framed receiver framed. -/
theorem framed_withChunk {s : State} (c : Bytes) (h : Framed s) : Framed (withChunk c s) := by
  have hf := framed_acceptChunk c h
  rwa [acceptChunk_eq] at hf

/-- R110: a receive of which nothing has come yet is framed. -/
theorem awaitsFresh.framed {s : State} (h : awaitsFresh s) : Framed s := by
  obtain ⟨_, _, _, hsynced, hbuf⟩ := h
  exact .inr ⟨hsynced, hbuf⟩

/-! ### The events that end a receive or a command -/

/-- R145: a received buffer becomes the command's result. -/
theorem checkReply_ok (s : State) (buf : Bytes) : checkReply s.req s.frame (.ok buf) = replyTo s buf := by
  unfold checkReply replyTo
  cases s.req.expBytes <;> rfl

/-- R111: a CHUNK is scanned and then compared. -/
theorem exec_chunk_eq {s : State} (c : Bytes) (h : s.rxPend = true) :
    exec (.chunk c) s = compareLength (readOver (withChunk c s)) := by
  rw [exec, execChunk, whenEnabled_of_enabled (i := .chunk c) h, acceptChunk_eq]

/-- R114, R115: a short buffer lets the receive go on. -/
theorem compareLength_short {s : State} (h : s.rxBuf.length < s.rxExp) :
    compareLength s = .next (continueRead s) := by
  rw [compareLength, if_neg h.asymm, if_neg h.ne]

/-- R114: a buffer of the expected length ends the receive. -/
theorem compareLength_complete {s : State} (h : s.rxBuf.length = s.rxExp) :
    compareLength s = rxFinish (.ok s.rxBuf) s := by
  rw [compareLength, if_neg h.le.not_gt, if_pos h]

/-- R114, R37: a longer buffer is BufferOverflow. -/
theorem compareLength_overflow {s : State} (h : s.rxExp < s.rxBuf.length) :
    compareLength s = rxFinish (.err (.overflow none s.rxBuf.length s.rxExp)) (forgetBuffer s) :=
  if_pos h

/-- R114, R115: a CHUNK that leaves the buffer short. -/
theorem exec_chunk_short {s : State} {c : Bytes} (h : s.rxPend = true)
    (hlen : (withChunk c s).rxBuf.length < s.rxExp) :
    exec (.chunk c) s = .next { withChunk c s with outs := s.outs ++ [.readReq] } := by
  rw [exec_chunk_eq c h, compareLength_short (s := readOver (withChunk c s)) hlen]
  simp [continueRead, emit, withChunk, readOver, h]

/-- R114, R116: a CHUNK that completes the buffer. -/
theorem exec_chunk_complete {s : State} {c : Bytes} (h : s.rxPend = true)
    (hlen : (withChunk c s).rxBuf.length = s.rxExp) :
    exec (.chunk c) s =
      seqOnCmd (replyTo s (withChunk c s).rxBuf) { receiveOver (withChunk c s) with tx := .idle } := by
  rw [exec_chunk_eq c h, compareLength_complete (s := readOver (withChunk c s)) hlen, rxFinish_eq,
    checkReply_ok]
  rfl

/-- R114, R37: a CHUNK that overflows the buffer. -/
theorem exec_chunk_overflow {s : State} {c : Bytes} (h : s.rxPend = true)
    (hlen : s.rxExp < (withChunk c s).rxBuf.length) :
    ∃ b n, exec (.chunk c) s =
      seqOnCmd (.err (.overflow (some s.frame) (withChunk c s).rxBuf.length s.rxExp))
        { receiveOver (withChunk c s) with tx := .idle, rxBuf := b, freeCtr := n } := by
  rw [exec_chunk_eq c h, compareLength_overflow (s := readOver (withChunk c s)) hlen, rxFinish_eq]
  exact ⟨_, _, rfl⟩

/-- R117: EOS hands what it makes of the buffer to the sequencer. -/
theorem exec_eos_eq {s : State} (h : s.rxPend = true) :
    exec .eos s =
      seqOnCmd (checkReply s.req s.frame (eosReply s)) { receiveOver s with tx := .idle } := by
  rw [exec, execEos, whenEnabled_of_enabled (i := .eos) h]
  rfl

/-- R117: EOS under `short_buffer` hands the partial buffer to the sequencer. -/
theorem exec_eos_shortBuffer {s : State} (h : s.rxPend = true) (hmode : s.params.eosMode = .shortBuffer) :
    exec .eos s = seqOnCmd (replyTo s s.rxBuf) { receiveOver s with tx := .idle } := by
  have hreply : eosReply s = .ok s.rxBuf := by rw [eosReply, hmode]
  rw [exec_eos_eq h, hreply, checkReply_ok]

/-- R117: EOS under `error` hands IncompleteResponse to the sequencer. -/
theorem exec_eos_error {s : State} (h : s.rxPend = true) (hmode : s.params.eosMode = .error) :
    exec .eos s = seqOnCmd (.err (.incomplete (some s.frame) s.rxBuf.length s.rxExp))
      { receiveOver s with tx := .idle } := by
  have hreply : eosReply s = .err (.incomplete none s.rxBuf.length s.rxExp) := by rw [eosReply, hmode]
  rw [exec_eos_eq h, hreply]
  rfl

/-- R118: READ_FAIL hands TransportError to the sequencer. -/
theorem exec_readFail_eq {s : State} (x : Cause) (h : s.rxPend = true) :
    exec (.readFail x) s = seqOnCmd (.err (.transport .read (some s.frame) x))
      { receiveOver s with tx := .idle } := by
  rw [exec, execReadFail, whenEnabled_of_enabled (i := .readFail x) h]
  rfl

/-- R144: WACK_FAIL hands TransportError to the sequencer. -/
theorem exec_wackFail_eq {s : State} (x : Cause) (h : s.tx = .writing) :
    exec (.wackFail x) s = seqOnCmd (.err (.transport .write (some s.frame) x)) { s with tx := .idle } := by
  rw [exec, execWackFail, whenEnabled_of_enabled (i := .wackFail x) (decide_eq_true h)]
  rfl

/-! ### TICK outside the settle delay (R119, R120) -/

/-- R119: without a receive a TICK has no effect. -/
theorem exec_tick_inactive {s : State} (hpg : s.pg ≠ .settle) (ha : s.rxActive = false) :
    exec .tick s = .next s := by
  rw [exec, execTick, whenEnabled_of_enabled rfl, if_neg hpg, if_neg (by simp [ha])]

/-- R119: a TICK of a running receive is one of its timer. -/
theorem exec_tick_active {s : State} (hpg : s.pg ≠ .settle) (ha : s.rxActive = true) :
    exec .tick s = timeoutTick s := by
  rw [exec, execTick, whenEnabled_of_enabled rfl, if_neg hpg, if_pos ha]

/-- R120: with timeout 0 the timer does not run. -/
theorem timeoutTick_zero {s : State} (h : s.rxTo = 0) : timeoutTick s = .next s := if_pos h

/-- R119: before the timeout a TICK only counts. -/
theorem timeoutTick_counts {s : State} (h : s.rxEl + 1 < s.rxTo) :
    timeoutTick s = .next { s with rxEl := s.rxEl + 1 } := by
  rw [timeoutTick, if_neg (by omega), if_neg (by omega), countElapsed]

/-- R119: the TICK that reaches the timeout withdraws the read and hands Timeout to the sequencer. -/
theorem timeoutTick_fires {s : State} (h : 0 < s.rxTo) (hel : s.rxTo ≤ s.rxEl + 1) :
    timeoutTick s = seqOnCmd (.err (.timeout (some s.frame) (s.rxEl + 1)))
      { receiveOver s with tx := .idle, rxEl := s.rxEl + 1, outs := s.outs ++ [.readCancel] } := by
  rw [timeoutTick, if_neg h.ne', if_pos hel]
  rfl

/-! ### The events as obligations -/

/-- Settles O17: the kept bytes leave the buffer short. -/
theorem chunkLeavesReceiveRunning : Obligations.ChunkLeavesReceiveRunning := by
  intro s c hpend hlen
  exact exec_chunk_short hpend (by simpa [withChunk] using hlen)

/-- Settles O18: the buffer is the one `withChunk` leaves, or the partial one. -/
theorem responsesReachSequencer : Obligations.ResponsesReachSequencer := by
  intro s c buf hpend
  refine ⟨?_, exec_eos_shortBuffer hpend⟩
  rintro rfl hlen
  exact exec_chunk_complete hpend hlen

/-- R183, R194: a single command's success ends the operation. -/
theorem seqOnCmd_ok_cmdOp {s : State} (buf : Bytes) (hm : s.mode = .cmdOp) (htx : s.tx = .idle) :
    seqOnCmd (.ok buf) s = .next (endedWith (.ok (.bytes buf)) s) := by
  simp [seqOnCmd, hm, finish_eq _ s htx]

/-- R183, R194: a single command's failure ends the operation. -/
theorem seqOnCmd_err_cmdOp {s : State} (e : Err) (hm : s.mode = .cmdOp) (htx : s.tx = .idle) :
    seqOnCmd (.err e) s = .next (endedWith (.err e) s) := by
  simp [seqOnCmd, hm, finish_eq _ s htx]

/-- Settles O19: the sequencer ends a single command with whatever result it is handed. -/
theorem transportEventsEndSingleCommand : Obligations.TransportEventsEndSingleCommand := by
  intro s x hm
  refine ⟨fun hpend hmode => ?_, fun hpend hmode => ⟨fun hexp => ?_, fun e hexp hne => ?_⟩,
    fun hpend => ?_, fun htx => ?_⟩
  · rw [exec_eos_error hpend hmode]
    exact seqOnCmd_err_cmdOp _ hm rfl
  · have hreply : replyTo s s.rxBuf = .ok s.rxBuf := by rcases hexp with hexp | hexp <;> simp [replyTo, hexp]
    rw [exec_eos_shortBuffer hpend hmode, hreply]
    exact seqOnCmd_ok_cmdOp _ hm rfl
  · have hreply : replyTo s s.rxBuf = .err (.mismatch s.frame e s.rxBuf) := by simp [replyTo, hexp, hne]
    rw [exec_eos_shortBuffer hpend hmode, hreply]
    exact seqOnCmd_err_cmdOp _ hm rfl
  · rw [exec_readFail_eq x hpend]
    exact seqOnCmd_err_cmdOp _ hm rfl
  · rw [exec_wackFail_eq x htx]
    exact seqOnCmd_err_cmdOp _ hm rfl

/-- Settles O20: without a receive, with timeout 0, and before the timeout. -/
theorem tickCountsOnlyRunningTimer : Obligations.TickCountsOnlyRunningTimer := by
  intro s hpg
  refine ⟨exec_tick_inactive hpg, fun ha hto => ?_, fun ha hel => ?_⟩
  · rw [exec_tick_active hpg ha, timeoutTick_zero hto]
  · rw [exec_tick_active hpg ha, timeoutTick_counts hel]

/-! ### What a receive hands over as OK (R121) -/

/-- R145: the command's result is OK only for the buffer the receiver handed over. -/
theorem eq_ok_of_checkReply {q : Request} {f : Bytes} {r : Reply} {buf : Bytes}
    (h : checkReply q f r = .ok buf) : r = .ok buf := by
  cases r with
  | err e => cases h
  | ok b =>
    unfold checkReply at h
    dsimp only at h
    split at h
    · split at h
      · exact h
      · cases h
    · exact h

/-- R183, R193: a lower-level operation that ends with bytes ends with those of its last command. -/
theorem reply_of_bytes_result {r : Reply} {s t : State} {b : Bytes} (h : seqOnCmd r s = .next t)
    (hm : s.mode = .cmdOp ∨ s.mode = .syncOp) (hres : t.result = some (.ok (.bytes b)))
    (hidle : t.mode = .idle) : r = .ok b := by
  have hflash : s.mode ≠ .flash := by rcases hm with hm | hm <;> simp [hm]
  have hrun : s.mode ≠ .idle := by rcases hm with hm | hm <;> simp [hm]
  cases r with
  | ok buf =>
    rcases seqOnCmd_ok_cases h with ⟨_, rfl⟩ | h
    · simpa using hres
    · simp [hflash] at h
  | err e =>
    rcases seqOnCmd_err_cases h with ⟨_, rfl⟩ | ⟨_, _, rfl⟩ | ⟨_, _, rfl⟩ | ⟨hf, _⟩ | ⟨hf, _⟩
    · simp at hres
    · simp [issueGetSync, hrun] at hidle
    · simp at hres
    · exact absurd hf hflash
    · exact absurd hf hflash

/-- R116: the same for the receive that ends with the operation. -/
theorem received_of_bytes_result {r : Reply} {s t : State} {b : Bytes} (h : rxFinish r s = .next t)
    (hm : s.mode = .cmdOp ∨ s.mode = .syncOp) (hres : t.result = some (.ok (.bytes b)))
    (hidle : t.mode = .idle) : r = .ok b := by
  rw [rxFinish_eq] at h
  exact eq_ok_of_checkReply (reply_of_bytes_result h hm hres hidle)

/-- R114: where a CHUNK ends a lower-level operation with bytes, they are the completed buffer. -/
theorem bytes_of_exec_chunk {c : Bytes} {s t : State} {b : Bytes} (h : exec (.chunk c) s = .next t)
    (hm : s.mode = .cmdOp ∨ s.mode = .syncOp) (hres : t.result = some (.ok (.bytes b)))
    (hidle : t.mode = .idle) : b = (withChunk c s).rxBuf ∧ b.length = s.rxExp := by
  obtain ⟨_, h⟩ := execChunk_cases h
  rw [acceptChunk_eq] at h
  rcases h with ⟨_, h⟩ | ⟨hlen, h⟩ | ⟨_, rfl⟩
  · cases received_of_bytes_result h hm hres hidle
  · cases received_of_bytes_result h hm hres hidle
    exact ⟨rfl, hlen⟩
  · have hrun : s.mode = .idle := hidle
    simp [hrun] at hm

/-- R117: where EOS ends a lower-level operation with bytes, they are the partial buffer. -/
theorem bytes_of_exec_eos {s t : State} {b : Bytes} (h : exec .eos s = .next t)
    (hm : s.mode = .cmdOp ∨ s.mode = .syncOp) (hres : t.result = some (.ok (.bytes b)))
    (hidle : t.mode = .idle) : b = s.rxBuf := by
  have hreply : eosReply s = .ok b := received_of_bytes_result (execEos_cases h).2 hm hres hidle
  unfold eosReply at hreply
  split at hreply
  · exact (Reply.ok.inj hreply).symm
  · cases hreply

/-- Settles O21: in a quiescent state a running receive is framed and short, and a chunk keeps it framed. -/
theorem receivedBytesAreFramed : Obligations.ReceivedBytesAreFramed := by
  intro s hq hpend
  have hactive : s.rxActive = true := hq.pend_active hpend
  have hhead : s.rxBuf ≠ [] → s.rxBuf.head? = some s.params.k.sof := fun hne =>
    (hq.rx.buf_marker hne).2
  have hshort : s.rxBuf.length < s.rxExp ∨ s.rxBuf = [] :=
    (hq.rx.active_short hactive).imp_right And.right
  have hheadChunk (c : Bytes) : (withChunk c s).rxBuf ≠ [] →
      (withChunk c s).rxBuf.head? = some s.params.k.sof := fun hne =>
    ((framed_withChunk c (hq.framed hactive)).marked hne).2
  refine ⟨?_, fun hmode => ⟨exec_eos_shortBuffer hpend hmode, hshort, hhead⟩,
    fun t b hm hres hidle => ⟨fun c h => ?_, fun h => ?_⟩⟩
  · rintro c _ rfl
    exact ⟨fun hlen => ⟨exec_chunk_complete hpend hlen, hheadChunk c⟩, exec_chunk_overflow hpend⟩
  · obtain ⟨rfl, hlen⟩ := bytes_of_exec_chunk h hm hres hidle
    exact ⟨hlen, hheadChunk c⟩
  · obtain rfl := bytes_of_exec_eos h hm hres hidle
    exact ⟨hshort, hhead⟩

/-! ### Runs -/

/-- A run goes on from where its first part ends. -/
theorem run_append_of_next {es fs : List Instr} {s t : State} (h : run es s = .next t) :
    run (es ++ fs) s = run fs t := by
  induction es generalizing s with
  | nil => cases h; rfl
  | cons e es ih =>
    simp only [run, List.cons_append] at h ⊢
    cases he : exec e s with
    | next u => rw [he] at h; exact ih h
    | fault r | refused r => rw [he] at h; cases h

/-- A run of one instruction is its execution. -/
@[simp] theorem run_singleton (i : Instr) (s : State) : run [i] s = exec i s := by
  simp only [run]
  cases exec i s <;> rfl

/-! ### A receive that goes on (R122, R123) -/

/-- R111 to R115, R119, R120: the receive after chunks and ticks that do not end it: their bytes as one chunk,
the ticks counted by a timer that runs, and one further read requested for each chunk. -/
def delivered (es : List Instr) (s : State) : State :=
  { withChunk (receiveStream es) s with
    rxEl := if s.rxTo = 0 then s.rxEl else s.rxEl + tickCount es
    outs := s.outs ++ List.replicate (es.length - tickCount es) .readReq }

/-- There are at most as many ticks as events. -/
theorem tickCount_le (es : List Instr) : tickCount es ≤ es.length := List.count_le_length

/-- The receive after no event. -/
@[simp] theorem delivered_nil (s : State) : delivered [] s = s := by
  simp [delivered, withChunk, receiveStream, tickCount, keptBytes]

/-- R122: what is delivered first and what is delivered then. -/
theorem delivered_append (es fs : List Instr) (s : State) :
    delivered (es ++ fs) s = delivered fs (delivered es s) := by
  have hstream : receiveStream (es ++ fs) = receiveStream es ++ receiveStream fs := List.flatMap_append
  have hticks : tickCount (es ++ fs) = tickCount es + tickCount fs := List.count_append
  have hreads : es.length + fs.length - (tickCount es + tickCount fs) =
      (es.length - tickCount es) + (fs.length - tickCount fs) := by
    have := tickCount_le es
    have := tickCount_le fs
    omega
  simp only [delivered, hstream, withChunk_append, List.length_append, hticks, hreads, List.replicate_add]
  by_cases hto : s.rxTo = 0 <;> simp [withChunk, hto, Nat.add_assoc]

/-- R113: the buffer only grows. -/
theorem rxBuf_length_le_delivered (es : List Instr) (s : State) :
    s.rxBuf.length ≤ (delivered es s).rxBuf.length := by
  simp [delivered, withChunk]

/-- R119: the timer only counts up. -/
theorem rxEl_le_delivered (es : List Instr) (s : State) : s.rxEl ≤ (delivered es s).rxEl := by
  simp only [delivered]
  split <;> omega

/-- R115, R119, R120: a chunk that leaves the buffer short, or a tick before the timeout. -/
theorem exec_delivery {e : Instr} {s : State} (ha : s.rxActive = true) (hp : s.rxPend = true)
    (hpg : s.pg ≠ .settle) (he : isDelivery e = true) (hto : s.rxTo = 0 ∨ (delivered [e] s).rxEl < s.rxTo)
    (hshort : (delivered [e] s).rxBuf.length < s.rxExp) : exec e s = .next (delivered [e] s) := by
  cases e with
  | tick =>
    rw [exec_tick_active hpg ha]
    by_cases h0 : s.rxTo = 0
    · rw [timeoutTick_zero h0]
      simp [delivered, receiveStream, withChunk, keptBytes, tickCount, if_pos h0]
    · have hel : s.rxEl + 1 < s.rxTo := by simpa [delivered, h0, tickCount] using hto
      rw [timeoutTick_counts hel]
      simp [delivered, receiveStream, withChunk, keptBytes, tickCount, h0]
  | chunk c =>
    have hstream : receiveStream [.chunk c] = c := List.append_nil c
    have hlen : (withChunk c s).rxBuf.length < s.rxExp := by simpa [delivered, hstream] using hshort
    rw [exec_chunk_short hp hlen]
    simp [delivered, hstream, tickCount, withChunk]
  | _ => cases he

/-- R122: chunks and ticks that neither complete the buffer nor reach the timeout. -/
theorem run_deliveries {es : List Instr} {s : State} (ha : s.rxActive = true) (hp : s.rxPend = true)
    (hpg : s.pg ≠ .settle) (hes : ∀ e ∈ es, isDelivery e = true)
    (hto : s.rxTo = 0 ∨ (delivered es s).rxEl < s.rxTo)
    (hshort : (delivered es s).rxBuf.length < s.rxExp) : run es s = .next (delivered es s) := by
  induction es generalizing s with
  | nil => simp [run]
  | cons e es ih =>
    have hsplit : delivered (e :: es) s = delivered es (delivered [e] s) := delivered_append [e] es s
    rw [hsplit] at hto hshort ⊢
    have hfirst : exec e s = .next (delivered [e] s) :=
      exec_delivery ha hp hpg (hes e (by simp)) (hto.imp_right (rxEl_le_delivered _ _).trans_lt)
        ((rxBuf_length_le_delivered _ _).trans_lt hshort)
    have hrest := ih (s := delivered [e] s) ha hp hpg (fun x hx => hes x (by simp [hx])) hto hshort
    rw [run, hfirst]
    exact hrest

/-- R112: the buffer is short of a response of which bytes are still to come. -/
theorem Framed.rxBuf_length_lt {s : State} {last : Bytes} (h : Framed s) (hlast : last ≠ [])
    (hne : (withChunk last s).rxBuf ≠ []) : s.rxBuf.length < (withChunk last s).rxBuf.length := by
  have hpos : 0 < last.length := List.length_pos_iff.mpr hlast
  rcases h with ⟨hsynced, _⟩ | ⟨_, hbuf⟩
  · simpa [withChunk, keptBytes, hsynced] using hpos
  · simpa [hbuf] using List.length_pos_iff.mpr hne

/-- R112: a response behind bytes without the marker fills a fresh receive with itself. -/
theorem withChunk_response {s : State} {pre f : Bytes} (h : awaitsFresh s) (hpre : s.params.k.sof ∉ pre)
    (hf : f.head? = some s.params.k.sof) :
    withChunk (pre ++ f) s = { s with rxSynced := true, rxBuf := f } := by
  obtain ⟨_, _, _, hsynced, hbuf⟩ := h
  obtain ⟨rest, rfl⟩ := List.head?_eq_some_iff.mp hf
  simp [withChunk, hsynced, hbuf, keptBytes_append_of_not_mem hpre]

/-- R122: a chunk after a delivery, in one with it. -/
theorem withChunk_delivered (c : Bytes) (es : List Instr) (s : State) :
    withChunk c (delivered es s) =
      { withChunk (receiveStream es ++ c) s with
        rxEl := (delivered es s).rxEl, outs := (delivered es s).outs } := by
  rw [withChunk_append]
  rfl

/-- Settles O22: all chunks but the last are one delivery that leaves the buffer short; with the last chunk the
receive has got `pre ++ f`, as if in one chunk. -/
theorem chunkSplitInvariance : Obligations.ChunkSplitInvariance := by
  intro s pre f last es hfresh hpg hexp hpre hf hes hlast hstream hto
  have ⟨_, ha, hp, _, _⟩ := hfresh
  have hall := withChunk_delivered last es s
  rw [hstream, withChunk_response hfresh hpre hf] at hall
  have hbuf : (withChunk last (delivered es s)).rxBuf = f := congrArg State.rxBuf hall
  have hlen : (withChunk last (delivered es s)).rxBuf.length = s.rxExp := by rw [hbuf, hexp]
  have hne : (withChunk last (delivered es s)).rxBuf ≠ [] := by
    rw [hbuf]
    rintro rfl
    cases hf
  have hframed : Framed (delivered es s) := framed_withChunk (receiveStream es) hfresh.framed
  have hshort : (delivered es s).rxBuf.length < s.rxExp := hlen ▸ hframed.rxBuf_length_lt hlast hne
  have hel : s.rxTo = 0 ∨ (delivered es s).rxEl < s.rxTo := by
    refine hto.imp_right fun hlt => ?_
    rw [delivered, if_neg (by omega)]
    exact hlt
  rw [run_append_of_next (run_deliveries ha hp hpg hes hel hshort), run_singleton,
    exec_chunk_complete (s := delivered es s) hp hlen, hbuf, hall]
  rfl

/-- R123: a transport that never delivers the marker only delivers. -/
theorem isDelivery_of_isSilent {sof : Byte} {e : Instr} (h : isSilent sof e = true) : isDelivery e = true := by
  cases e with
  | tick | chunk => rfl
  | _ => cases h

/-- R123: the receive stream of a transport that never delivers the marker. -/
theorem sof_not_mem_receiveStream {sof : Byte} {es : List Instr} (h : ∀ e ∈ es, isSilent sof e = true) :
    sof ∉ receiveStream es := by
  intro hmem
  obtain ⟨e, he, hin⟩ := List.mem_flatMap.mp hmem
  have hsilent := h e he
  cases e with
  | chunk c => simp_all [isSilent]
  | _ => cases hin

/-- R112, R123: bytes without the marker leave a fresh receive as it is. -/
theorem withChunk_of_not_mem {s : State} {c : Bytes} (h : awaitsFresh s) (hc : s.params.k.sof ∉ c) :
    withChunk c s = s := by
  obtain ⟨_, _, _, hsynced, _⟩ := h
  have hkept : keptBytes s.params.k.sof s.rxSynced c = [] := by rw [hsynced, keptBytes_of_not_mem hc]
  simp [withChunk, hkept, hc]

/-- Settles O23: the silent events are one delivery of no byte, after which one tick is missing. -/
theorem silentReceiveTimesOut : Obligations.SilentReceiveTimesOut := by
  intro s es hfresh hpg hto hel hexp hes hticks
  have ⟨_, ha, hp, _, hbuf⟩ := hfresh
  have hdel : delivered es s = { s with
      rxEl := tickCount es
      outs := s.outs ++ List.replicate (es.length - tickCount es) .readReq } := by
    rw [delivered, withChunk_of_not_mem hfresh (sof_not_mem_receiveStream hes), if_neg hto.ne', hel,
      Nat.zero_add]
  have hcount : (delivered es s).rxEl + 1 = s.rxTo := by rw [hdel, ← hticks]
  have hempty : (delivered es s).rxBuf.length = 0 := by rw [hdel, hbuf, List.length_nil]
  have hrun : run es s = .next (delivered es s) :=
    run_deliveries ha hp hpg (fun e he => isDelivery_of_isSilent (hes e he)) (.inr (by omega)) (by omega)
  refine ⟨hdel ▸ hrun, ?_⟩
  rw [run_append_of_next hrun, run_singleton, exec_tick_active (s := delivered es s) hpg ha,
    timeoutTick_fires (s := delivered es s) hto hcount.ge, hcount, hdel]
  rfl

end Sys2Proof.Machine
end

section
/-!
SUPPORT and PROOFS. The command transceiver (spec/41_command_transceiver.md). A command is issued in one way
only, `cmdIssue` (R140), and every position of the algorithm issues the request that belongs to it (R160 to
R167, R185, R202, R205, R206). So the sequencer, which starts from a finished command, always leaves either no
command in flight or the one of the position it has come to.
-/

namespace Sys2Proof.Machine

/-! ### What the command's invariants speak of -/

/-- R140, R110: the command in flight is the one its position issues, and FRAME, RX_EXP and RX_TO belong to
it. -/
def CommandOk (s : State) : Prop := CommandInvariant s ∧ InFlightOk s

/-- R31 to R33, R38, R39: the transceiver's registers with those of the receive it starts, the parameters, and
the request of the position. -/
structure InFlight where
  params   : Params
  tx       : Tx
  req      : Request
  frame    : Bytes
  expected : Nat
  timeout  : Nat
  position : Option Request

/-- What the command's invariants speak of in a state. -/
def State.inFlight (s : State) : InFlight :=
  ⟨s.params, s.tx, s.req, s.frame, s.rxExp, s.rxTo, positionRequest s⟩

/-- The command's invariants speak of nothing else. -/
theorem CommandOk.of_eq {s t : State} (h : CommandOk s) (ht : t.inFlight = s.inFlight) : CommandOk t := by
  simp only [State.inFlight, InFlight.mk.injEq] at ht
  obtain ⟨hparams, htx, hreq, hframe, hexp, hto, hposition⟩ := ht
  obtain ⟨⟨hframe_of, hexp_of, hto_of⟩, hin⟩ := h
  refine ⟨⟨?_, ?_, ?_⟩, ?_⟩
  · rwa [htx, hframe, hparams, hreq]
  · rwa [htx, hexp, hreq]
  · rwa [htx, hto, hreq]
  · rwa [InFlightOk, htx, hposition, hreq]

/-- R147: with no command in flight nothing is asked of one. -/
theorem commandOk_of_idle {s : State} (h : s.tx = .idle) : CommandOk s := by
  refine ⟨⟨?_, ?_, ?_⟩, ?_⟩ <;> simp [InFlightOk, h]

/-! ### Issuing a command (R140) and starting its receive (R143) -/

/-- R140: a command that its position does not contradict is issued with its frame, and no receive runs. -/
theorem commandOk_cmdIssue {q : Request} {s : State} (h : ∀ p, positionRequest s = some p → q = p) :
    CommandOk (cmdIssue q s) :=
  ⟨⟨fun _ => rfl, nofun, nofun⟩, fun _ => h⟩

/-- R140: the command of the position is issued. -/
theorem commandOk_cmdIssue_position {q : Request} {s : State} (h : positionRequest s = some q) :
    CommandOk (cmdIssue q s) :=
  commandOk_cmdIssue fun _ hp => Option.some.inj (h.symm.trans hp)

/-- R143, R110: the receive starts with the length and the timeout of the command that was written. -/
theorem CommandOk.rxStart {s : State} (h : CommandOk s) (htx : s.tx = .writing) :
    CommandOk (rxStart (respLen s.req) s.req.timeout s) := by
  have hflight : s.tx ≠ .idle := by simp [htx]
  exact ⟨⟨fun _ => h.1.frame_of hflight, fun _ => rfl, fun _ => rfl⟩, fun _ => h.2 hflight⟩

/-! ### The command of each position (R160 to R167, R202 to R206) -/

/-- R184: every attempt of a Sync issues GET_SYNC. -/
theorem positionRequest_sync {s : State}
    (h : s.mode = .syncOp ∨ (s.mode = .flash ∧ s.flashStep.isSync = true)) :
    positionRequest s = some (getSyncRequest s) := by
  rcases h with hm | ⟨hm, hs⟩
  · simp [positionRequest, hm]
  · cases hst : s.flashStep with
    | sync1 | sync2 | sync3 => simp [positionRequest, hm, hst]
    | _ => simp [FlashStep.isSync, hst] at hs

/-- R202: an iteration of a paged step issues LOAD_ADDRESS with its word address. -/
theorem commandOk_loadAddress {s : State} (hm : s.mode = .flash) (hs : s.flashStep.isPaged = true) :
    CommandOk (loadAddress s) := by
  refine commandOk_cmdIssue_position ?_
  cases hst : s.flashStep with
  | upload | verify => simp [positionRequest, hm, hst]
  | _ => simp [FlashStep.isPaged, hst] at hs

/-- R190: EXIT_PROGMODE issues LEAVE_PROGMODE. -/
theorem commandOk_beginExitProgmode {s : State} (hm : s.mode = .flash) :
    CommandOk (beginExitProgmode s) :=
  commandOk_cmdIssue_position (by simp [positionRequest, hm])

/-! ### The sequencer -/

/-- R185, R192: the end of a step issues the first command of the position it comes to, or ends the flash. -/
theorem commandOk_of_stepOk {s t : State} (hm : s.mode = .flash) (htx : s.tx = .idle)
    (h : stepOk s = .next t) : CommandOk t := by
  rcases stepOk_cases h with ⟨_, rfl⟩ | ⟨_, rfl⟩ | ⟨_, rfl⟩ | ⟨_, rfl⟩ | ⟨_, rfl⟩ | ⟨_, _, rfl⟩ |
    ⟨_, _, rfl⟩ | ⟨_, _, rfl⟩ | ⟨_, _, rfl⟩ | ⟨_, rfl⟩ | ⟨_, rfl⟩
  · exact commandOk_cmdIssue_position (positionRequest_sync (.inr (by simp [hm, FlashStep.isSync])))
  · exact commandOk_cmdIssue_position (positionRequest_sync (.inr (by simp [hm, FlashStep.isSync])))
  · exact commandOk_cmdIssue_position (by simp [positionRequest, hm])
  · exact commandOk_cmdIssue_position (by simp [positionRequest, hm])
  · exact commandOk_cmdIssue_position (by simp [positionRequest, hm])
  · exact commandOk_loadAddress (by simp [hm]) (by simp [FlashStep.isPaged])
  · exact commandOk_beginExitProgmode (by simp [hm])
  · exact commandOk_loadAddress (by simp [hm]) (by simp [FlashStep.isPaged])
  · exact commandOk_beginExitProgmode (by simp [hm])
  · exact commandOk_beginExitProgmode (by simp [hm])
  · exact commandOk_of_idle (by simp [htx])

/-- R183, R203: the result of a finished command issues the command of the position it leads to, or none. -/
theorem commandOk_of_seqOnCmd {r : Reply} {s t : State} (htx : s.tx = .idle)
    (h : seqOnCmd r s = .next t) : CommandOk t := by
  cases r with
  | ok buf =>
    rcases seqOnCmd_ok_cases h with ⟨_, rfl⟩ | ⟨hm, _, _, h⟩ | ⟨hm, _, h⟩ | ⟨hm, hs, _, rfl⟩ |
      ⟨hm, hs, _, rfl⟩ | ⟨_, _, _, rfl⟩ | ⟨_, _, _, _, rfl⟩ | ⟨_, _, _, _, rfl⟩
    · exact commandOk_of_idle htx
    · exact commandOk_of_stepOk hm htx h
    · exact commandOk_of_stepOk (s := keepSignature buf s) hm htx h
    · exact commandOk_cmdIssue_position (by simp [positionRequest, hm, hs])
    · exact commandOk_cmdIssue_position (by simp [positionRequest, hm, hs])
    · exact commandOk_of_idle htx
    · exact commandOk_of_idle htx
    · exact commandOk_of_idle (by simp [stepFail, htx])
  | err e =>
    rcases seqOnCmd_err_cases h with ⟨_, rfl⟩ | ⟨hsync, _, rfl⟩ | ⟨_, _, rfl⟩ | ⟨_, _, _, rfl⟩ |
      ⟨_, _, _, rfl⟩
    · exact commandOk_of_idle htx
    · exact commandOk_cmdIssue_position (positionRequest_sync hsync)
    · exact commandOk_of_idle htx
    · exact commandOk_of_idle (by simp [stepFail, htx])
    · exact commandOk_of_idle (by simp [stepFail, htx])

/-- R116: the end of a receive is the end of its command. -/
theorem commandOk_of_rxFinish {r : Reply} {s t : State} (h : rxFinish r s = .next t) : CommandOk t := by
  rw [rxFinish_eq] at h
  exact commandOk_of_seqOnCmd (commandOver_tx _) h

/-- R209 to R211: no command is in flight in the settle delay; its last tick issues the next one. -/
theorem commandOk_of_settleTick {s t : State} (hc : ControlOk s) (hp : s.pg = .settle)
    (h : settleTick s = .next t) : CommandOk t := by
  obtain ⟨hm, hs, htx⟩ := hc.of_settle hp
  rcases settleTick_cases h with ⟨_, rfl⟩ | ⟨_, _, rfl⟩ | ⟨_, _, h⟩
  · exact commandOk_of_idle htx
  · exact commandOk_loadAddress hm hs
  · exact commandOk_of_stepOk (s := leavePage (leavePage (countSettle s))) hm htx h

/-! ### Every step keeps the command in flight -/

/-- R140, R110: every instruction keeps the command's invariants. -/
theorem commandOk_of_exec {i : Instr} {s t : State} (hc : ControlOk s) (hs : CommandOk s)
    (h : exec i s = .next t) : CommandOk t := by
  cases i with
  | getSync | readSign | setDevice | enterProgmode | leaveProgmode | loadAddress | progPage | readPage =>
    have hissue := (execCommand_cases (k := s.params.k) rfl h).1
    simp [canIssue_of_controlOk hc] at hissue
  | tick =>
    rcases execTick_cases h with ⟨hp, h⟩ | ⟨_, _, _, _, rfl⟩ | ⟨_, _, _, _, h⟩ | ⟨_, _, rfl⟩
    · exact commandOk_of_settleTick hc hp h
    · exact hs.of_eq rfl
    · exact commandOk_of_rxFinish h
    · exact hs
  | chunk c =>
    rcases (execChunk_cases h).2 with ⟨_, h⟩ | ⟨_, h⟩ | ⟨_, rfl⟩
    · exact commandOk_of_rxFinish h
    · exact commandOk_of_rxFinish h
    · exact hs.of_eq rfl
  | eos => exact commandOk_of_rxFinish (execEos_cases h).2
  | readFail x => exact commandOk_of_rxFinish (execReadFail_cases h).2
  | wackOk =>
    obtain ⟨htx, rfl⟩ := execWackOk_cases h
    exact hs.rxStart htx
  | wackFail x => exact commandOk_of_seqOnCmd (commandOver_tx s) (execWackFail_cases h).2
  | startFlash img prof opts =>
    obtain ⟨_, _, rfl⟩ := execStartFlash_cases h
    exact commandOk_cmdIssue_position (positionRequest_sync (.inr (by simp [FlashStep.isSync])))
  | startSync a b =>
    obtain ⟨_, rfl⟩ := execStartSync_cases h
    exact commandOk_cmdIssue_position (positionRequest_sync (.inl rfl))
  | startCommand q =>
    obtain ⟨_, rfl⟩ := execStartCommand_cases h
    exact commandOk_cmdIssue nofun

/-- Settles O50: only WACK_OK and the events that leave the receive running have one command in flight before
and after; a START issues its own, and every other event goes through the sequencer, which starts from a
finished command. -/
theorem stepKeepsCommandInFlight : Obligations.StepKeepsCommandInFlight := by
  intro s t hq hinv hin h
  obtain ⟨_, i, rest, _, h⟩ := step_cases h
  have hs : CommandOk s := ⟨hinv, hin⟩
  exact commandOk_of_exec (hq.consumed rest).control (hs.of_eq rfl) h

/-! ### The frame and the receive of a request (R141 to R143) -/

/-- Settles O27: a RAW request closes with its own terminator where it has one; a PREBUILT frame is written
as it is. -/
theorem requestFrames : Obligations.RequestFrames := by
  refine fun k q => ⟨fun hform hterm => ?_, fun b hform hterm => ?_, fun hform => ?_⟩
  · simp [buildFrame, hform, hterm]
  · simp [buildFrame, hform, hterm]
  · simp [buildFrame, hform]

/-- R143: an acknowledged WRITE starts the receive of its request. -/
theorem exec_wackOk_eq {s : State} (h : s.tx = .writing) :
    exec .wackOk s = .next (rxStart (respLen s.req) s.req.timeout s) := by
  rw [exec, execWackOk, whenEnabled_of_enabled (i := .wackOk) (decide_eq_true h)]

/-- R141: an explicit length comes first. -/
theorem respLen_of_expLen {q : Request} {n : Nat} (h : q.expLen = some n) : respLen q = n := by
  simp [respLen, h]

/-- R141: without an explicit length, the expected bytes give it. -/
theorem respLen_of_expBytes {q : Request} {e : Bytes} (hlen : q.expLen = none)
    (h : q.expBytes = some e) : respLen q = e.length := by
  simp [respLen, hlen, h]

/-- R141: a request that expects nothing awaits no byte. -/
theorem respLen_of_none {q : Request} (hlen : q.expLen = none) (h : q.expBytes = none) :
    respLen q = 0 := by
  simp [respLen, hlen, h]

/-- Settles O24: the receive that starts is `rxStart` of the request, whose length is each case of R141. -/
theorem wackOkStartsReceive : Obligations.WackOkStartsReceive := by
  intro s htx
  rw [exec_wackOk_eq htx]
  cases hlen : s.req.expLen with
  | some n => rw [respLen_of_expLen hlen]; rfl
  | none =>
    cases hexp : s.req.expBytes with
    | some e => rw [respLen_of_expBytes hlen hexp]; rfl
    | none => rw [respLen_of_none hlen hexp]; rfl

/-! ### The result of a command (R144 to R148) -/

/-- Settles O25: each failure by what its event hands to the sequencer. -/
theorem failuresReachSequencer : Obligations.FailuresReachSequencer := by
  refine fun s => ⟨exec_wackFail_eq, exec_readFail_eq, exec_eos_error, ?_, ?_⟩
  · rintro c m hpend rfl hlong
    have hlen : (withChunk c s).rxBuf.length =
        s.rxBuf.length + (keptBytes s.params.k.sof s.rxSynced c).length := List.length_append
    exact hlen ▸ exec_chunk_overflow hpend (hlen ▸ hlong)
  · intro hpg hactive hto hel
    rw [exec_tick_active hpg hactive, timeoutTick_fires hto hel]

/-- R145: where bytes are expected, the result is OK for exactly these. -/
theorem replyTo_of_expBytes {s : State} {e : Bytes} (h : s.req.expBytes = some e) (buf : Bytes) :
    replyTo s buf = if buf = e then .ok buf else .err (.mismatch s.frame e buf) := by
  rw [replyTo, h]

/-- R182: in IDLE, START_COMMAND issues the caller's request. -/
theorem exec_startCommand_eq {s : State} (q : Request) (hm : s.mode = .idle) :
    exec (.startCommand q) s = .next (cmdIssue q (openCommand s)) := by
  rw [exec, execStartCommand, whenEnabled_of_enabled (i := .startCommand q) (decide_eq_true hm)]

/-- R182, R143: a single command that was written, acknowledged, and of whose response nothing has come. -/
def commandAwaiting (q : Request) (s : State) : State :=
  rxStart (respLen q) q.timeout (cmdIssue q (openCommand s))

/-- R182, R143: the acknowledged WRITE of a single command awaits the response. -/
theorem run_startCommand_wackOk {s : State} (q : Request) (hm : s.mode = .idle) :
    run [.startCommand q, .wackOk] s = .next (commandAwaiting q s) := by
  rw [run, exec_startCommand_eq q hm]
  exact (run_singleton _ _).trans (exec_wackOk_eq rfl)

/-- R112: a response that begins with the marker fills a fresh receive with itself. -/
theorem exec_chunk_response {s : State} {buf : Bytes} (h : awaitsFresh s)
    (hhead : buf.head? = some s.params.k.sof) (hlen : buf.length = s.rxExp) :
    exec (.chunk buf) s =
      seqOnCmd (replyTo s buf) { receiveOver s with tx := .idle, rxSynced := true, rxBuf := buf } := by
  have hchunk : withChunk buf s = { s with rxSynced := true, rxBuf := buf } :=
    withChunk_response (pre := []) h List.not_mem_nil hhead
  have ⟨_, _, hpend, _, _⟩ := h
  rw [exec_chunk_complete hpend (by rw [hchunk]; exact hlen), hchunk]
  rfl

/-- Settles O26: the response completes the receive, and the comparison of R145 is the command's result. -/
theorem exactResponseMatch : Obligations.ExactResponseMatch := by
  intro s q e buf hm hexp hnone hhead hlen
  have hfresh : awaitsFresh (commandAwaiting q s) := ⟨rfl, rfl, rfl, rfl, rfl⟩
  have hrxExp : buf.length = (commandAwaiting q s).rxExp :=
    hlen.trans (respLen_of_expBytes hnone hexp).symm
  have hrun : run [.startCommand q, .wackOk, .chunk buf] s = exec (.chunk buf) (commandAwaiting q s) :=
    (run_append_of_next (run_startCommand_wackOk q hm)).trans (run_singleton _ _)
  rw [hrun, exec_chunk_response hfresh hhead hrxExp]
  have hcmp : replyTo (commandAwaiting q s) buf =
      if buf = e then .ok buf else .err (.mismatch (buildFrame s.params.k q) e buf) :=
    replyTo_of_expBytes hexp buf
  have houts : (commandAwaiting q s).outs = s.outs ++ [.write (buildFrame s.params.k q), .readReq] := by
    simp [commandAwaiting]
  rw [hcmp]
  by_cases heq : buf = e
  · rw [if_pos heq, seqOnCmd_ok_cmdOp buf rfl rfl]
    exact ⟨_, rfl, rfl, fun _ => rfl, fun hne => absurd heq hne, by simp [endedWith, receiveOver, houts]⟩
  · rw [if_neg heq, seqOnCmd_err_cmdOp _ rfl rfl]
    exact ⟨_, rfl, rfl, fun h => absurd h heq, fun _ => rfl, by simp [endedWith, receiveOver, houts]⟩

end Sys2Proof.Machine
end

section
/-!
SUPPORT and PROOFS. The eight wire commands (spec/42_commands.md R160 to R167). Where a command may be issued,
the meaning of each is its issue (R140); each issue gives the state written out in Safety; and the operands of
16 bits are split into the bytes of R88.
-/

namespace Sys2Proof.Machine

/-! ### The bytes of a 16-bit operand (R88) -/

/-- R8: the low byte. -/
@[simp] theorem lo8_toNat (n : Nat) : (lo8 n).toNat = n % 256 := BitVec.toNat_ofNat n 8

/-- R8: the high byte. -/
@[simp] theorem hi8_toNat (n : Nat) : (hi8 n).toNat = n / 256 % 256 := by
  rw [hi8, BitVec.toNat_ofNat, Nat.shiftRight_eq_div_pow]

/-- R88: two bytes carry a value modulo `2^16`. -/
theorem lo8_add_hi8 (n : Nat) : (lo8 n).toNat + 256 * (hi8 n).toNat = n % 2 ^ 16 := by
  rw [lo8_toNat, hi8_toNat]
  omega

/-! ### The state each issue gives (R140, R142) -/

/-- R140: issuing a request gives the state written out in Safety, with the frame R142 builds of it. -/
theorem cmdIssue_eq_issuedAs {q : Request} {f : Bytes} {s : State} (hf : buildFrame s.params.k q = f) :
    cmdIssue q s = issuedAs q f s := by
  rw [← hf]
  rfl

/-- R161: issuing READ_SIGN. -/
theorem issueReadSign_eq (s : State) :
    issueReadSign s = issuedAs
      (lengthOnlyRequest s.params.k.readSign [] (1 + s.profile.sig.length + 1) s.timeout)
      [s.params.k.readSign, s.params.k.eop] s :=
  cmdIssue_eq_issuedAs rfl

/-- R162: issuing SET_DEVICE. -/
theorem issueSetDevice_eq (d : Bytes) (s : State) :
    issueSetDevice d s = issuedAs
      (exactRequest s.params.k.setDevice d [s.params.k.ok0, s.params.k.ok1] s.timeout)
      ([s.params.k.setDevice] ++ d ++ [s.params.k.eop]) s :=
  cmdIssue_eq_issuedAs rfl

/-- R163: issuing ENTER_PROGMODE. -/
theorem issueEnterProgmode_eq (s : State) :
    issueEnterProgmode s = issuedAs
      (exactRequest s.params.k.enterProgmode [] [s.params.k.ok0, s.params.k.ok1] s.timeout)
      [s.params.k.enterProgmode, s.params.k.eop] s :=
  cmdIssue_eq_issuedAs rfl

/-- R164: issuing LEAVE_PROGMODE. -/
theorem issueLeaveProgmode_eq (s : State) :
    issueLeaveProgmode s = issuedAs
      (exactRequest s.params.k.leaveProgmode [] [s.params.k.ok0, s.params.k.ok1] s.timeout)
      [s.params.k.leaveProgmode, s.params.k.eop] s :=
  cmdIssue_eq_issuedAs rfl

/-- R165: issuing LOAD_ADDRESS. -/
theorem issueLoadAddress_eq (w : Nat) (s : State) : issueLoadAddress w s = loadAddressIssued w s :=
  cmdIssue_eq_issuedAs rfl

/-! ### A command that may be issued is issued (R140) -/

/-- R98: an instruction that is enabled has the next state of its meaning. -/
theorem exec_of_whenEnabled_next {i : Instr} {s : State} {f : State → State}
    (hrun : exec i s = whenEnabled i s fun s => .next (f s)) (h : enabled i s = true) :
    exec i s = .next (f s) :=
  hrun.trans (whenEnabled_of_enabled h)

section
variable {s : State} (h : canIssue s = true)
include h

/-- R160. -/
theorem exec_getSync_of_canIssue : exec .getSync s = .next (issueGetSync s) :=
  exec_of_whenEnabled_next rfl h

/-- R161. -/
theorem exec_readSign_of_canIssue : exec .readSign s = .next (issueReadSign s) :=
  exec_of_whenEnabled_next rfl h

/-- R162: with 20 bytes. -/
theorem exec_setDevice_of_canIssue {d : Bytes} (hd : d.length = 20) :
    exec (.setDevice d) s = .next (issueSetDevice d s) :=
  exec_of_whenEnabled_next (if_pos hd) h

/-- R163. -/
theorem exec_enterProgmode_of_canIssue : exec .enterProgmode s = .next (issueEnterProgmode s) :=
  exec_of_whenEnabled_next rfl h

/-- R164. -/
theorem exec_leaveProgmode_of_canIssue : exec .leaveProgmode s = .next (issueLeaveProgmode s) :=
  exec_of_whenEnabled_next rfl h

/-- R165. -/
theorem exec_loadAddress_of_canIssue (w : Nat) :
    exec (.loadAddress w) s = .next (issueLoadAddress w s) :=
  exec_of_whenEnabled_next rfl h

/-- R166. -/
theorem exec_progPage_of_canIssue (d : Bytes) : exec (.progPage d) s = .next (issueProgPage d s) :=
  exec_of_whenEnabled_next rfl h

/-- R167. -/
theorem exec_readPage_of_canIssue (c : Nat) : exec (.readPage c) s = .next (issueReadPage c s) :=
  exec_of_whenEnabled_next rfl h

end

/-- R162, U12: SET_DEVICE with another number of bytes has no step in any state. -/
theorem exec_setDevice_of_length_ne {d : Bytes} (hd : d.length ≠ 20) (s : State) :
    exec (.setDevice d) s = .refused .illFormedInput :=
  if_neg hd

/-! ### The statements

They stand in a namespace of their own, because three of their names are also the names of Safety's states. -/

namespace Commands

/-- Settles O10: each of the four commands is issued, and its issue is the state of the statement. -/
theorem plainCommandsIssued : Obligations.PlainCommandsIssued := by
  intro s h
  refine ⟨?_, ?_, ?_, ?_⟩
  · rw [exec_getSync_of_canIssue h, issueGetSync_eq, getSyncIssued]
  · rw [exec_readSign_of_canIssue h, issueReadSign_eq]
  · rw [exec_enterProgmode_of_canIssue h, issueEnterProgmode_eq]
  · rw [exec_leaveProgmode_of_canIssue h, issueLeaveProgmode_eq]

/-- Settles O11: by the number of bytes. -/
theorem setDeviceIssued : Obligations.SetDeviceIssued := by
  intro s d h
  refine ⟨fun hd => ?_, fun hd => exec_setDevice_of_length_ne hd s⟩
  rw [exec_setDevice_of_canIssue h hd, issueSetDevice_eq]

/-- Settles O12: the bytes are `lo8` and `hi8` of the word address. -/
theorem loadAddressIssued : Obligations.LoadAddressIssued := by
  intro s w h
  refine ⟨lo8 w, hi8 w, lo8_toNat w, hi8_toNat w, lo8_add_hi8 w, ?_⟩
  rw [exec_loadAddress_of_canIssue h, issueLoadAddress_eq, Machine.loadAddressIssued]

/-- Settles O13: the bytes are `lo8` and `hi8` of the slice length. -/
theorem progPageIssued : Obligations.ProgPageIssued := by
  intro s d h
  refine ⟨lo8 d.length, hi8 d.length, lo8_toNat _, hi8_toNat _, ?_⟩
  rw [exec_progPage_of_canIssue h, issueProgPage_eq, Machine.progPageIssued]

/-- Settles O14: the bytes are `lo8` and `hi8` of the count. -/
theorem readPageIssued : Obligations.ReadPageIssued := by
  intro s c h
  refine ⟨lo8 c, hi8 c, lo8_toNat c, hi8_toNat c, ?_⟩
  rw [exec_readPage_of_canIssue h, issueReadPage_eq, Machine.readPageIssued]

end Commands

end Sys2Proof.Machine
end

section
/-!
SUPPORT and PROOFS. The programming state machine (spec/43_state_machine.md R180 to R194), transition by
transition. The caller's operations issue their first command; the result of a command ends a lower-level
operation, is followed by another attempt of Sync, aborts the flash, or passes a step and begins the next. Each
transition is given as the state written out in Safety.
-/

namespace Sys2Proof.Machine

/-! ### The caller's operations (R180 to R182) -/

/-- R184: a Sync begins with its first attempt, GET_SYNC issued. -/
theorem syncBegin_eq (s : State) : syncBegin s = getSyncIssued { s with syncTry := 1, syncLast := none } :=
  issueGetSync_eq (firstAttempt s)

/-- R180: the state in which a new session writes its first GET_SYNC. -/
theorem exec_startFlash_eq {s : State} {img : Bytes} {prof : Profile} {opts : Options}
    (hm : s.mode = .idle) (hprof : prof.wf = true) :
    exec (.startFlash img prof opts) s =
      .next (syncBegin (enterStep .sync1 (openSession img prof opts s))) := by
  rw [exec, execStartFlash, if_pos hprof,
    whenEnabled_of_enabled (i := .startFlash img prof opts) (decide_eq_true hm)]
  rfl

/-- R181: the state in which a Sync of the lower-level surface writes its first GET_SYNC. -/
theorem exec_startSync_eq {s : State} (a t : Nat) (hm : s.mode = .idle) :
    exec (.startSync a t) s = .next (syncBegin (openSync a t s)) := by
  rw [exec, execStartSync, whenEnabled_of_enabled (i := .startSync a t) (decide_eq_true hm)]

/-- Settles O28: the profile is looked at before the mode, so that an ill-formed one is refused anywhere. -/
theorem startFlashOpensSession : Obligations.StartFlashOpensSession := by
  intro s img prof opts
  refine ⟨fun hm hlen => ?_, fun hlen => ?_, fun hm hlen => ?_⟩
  · rw [exec_startFlash_eq hm (decide_eq_true hlen), syncBegin_eq, enterStep, traceEvent_eq]
    rfl
  · exact if_neg fun hprof => hlen (of_decide_eq_true hprof)
  · exact exec_of_not_enabled (decide_eq_true hlen) (decide_eq_false hm)

/-- Settles O29: START_SYNC by `syncBegin`, START_COMMAND by `cmdIssue`. -/
theorem lowerLevelOperationsStart : Obligations.LowerLevelOperationsStart := by
  intro s hm
  refine ⟨fun a t => ?_, fun q => ?_⟩
  · rw [exec_startSync_eq a t hm, syncBegin_eq]
    rfl
  · rw [exec_startCommand_eq q hm]
    rfl

/-! ### The results of the lower-level operations and of Sync (R183, R184, R193) -/

/-- R193, R194: a successful Sync of the lower-level surface ends the operation. -/
theorem seqOnCmd_ok_syncOp {s : State} (buf : Bytes) (hm : s.mode = .syncOp) (htx : s.tx = .idle) :
    seqOnCmd (.ok buf) s = .next (endedWith (.ok (.bytes buf)) s) := by
  simp [seqOnCmd, hm, syncOnResult, syncDone, finish_eq _ s htx]

/-- Settles O30: the result is handed on as it is. -/
theorem lowerLevelResultsAreDone : Obligations.LowerLevelResultsAreDone := by
  intro s htx
  exact ⟨fun hm => ⟨fun buf => seqOnCmd_ok_cmdOp buf hm htx, fun e => seqOnCmd_err_cmdOp e hm htx⟩,
    fun hm buf => seqOnCmd_ok_syncOp buf hm htx⟩

/-- R183: in SYNC_OP and in the Sync steps of a flash, a command's result is that of an attempt. -/
theorem seqOnCmd_sync {s : State} (r : Reply)
    (h : s.mode = .syncOp ∨ (s.mode = .flash ∧ s.flashStep.isSync = true)) :
    seqOnCmd r s = syncOnResult r s := by
  rcases h with hm | ⟨hm, hs⟩
  · simp [seqOnCmd, hm]
  · cases hst : s.flashStep with
    | sync1 | sync2 | sync3 => simp [seqOnCmd, hm, hst]
    | _ => simp [FlashStep.isSync, hst] at hs

/-- R184: below the budget a failed attempt is followed by the next one. -/
theorem syncOnResult_retry {s : State} (e : Err) (h : s.syncTry < max s.attempts 1) :
    syncOnResult (.err e) s =
      .next (getSyncIssued { s with syncLast := some e, syncTry := s.syncTry + 1 }) := by
  rw [syncOnResult, syncBudget, if_pos h, issueGetSync_eq]
  rfl

/-- R184: the last attempt's failure exhausts Sync. -/
theorem syncOnResult_exhausted {s : State} (e : Err) (h : max s.attempts 1 ≤ s.syncTry) :
    syncOnResult (.err e) s =
      syncDone (.err (.syncExhausted (max s.attempts 1) e)) { s with syncLast := some e } := by
  rw [syncOnResult, syncBudget, if_neg h.not_gt]
  rfl

/-- R193: a failed Sync of the lower-level surface ends the operation, its error unwrapped. -/
theorem syncDone_err_syncOp {s : State} (e : Err) (hm : s.mode = .syncOp) (htx : s.tx = .idle) :
    syncDone (.err e) s = .next (endedWith (.err e) s) := by
  rw [syncDone, if_pos hm, finish_eq _ s htx]

/-- R193, R191: a failed Sync of a flash aborts it. -/
theorem syncDone_err_flash {s : State} (e : Err) (hm : s.mode = .flash) (htx : s.tx = .idle) :
    syncDone (.err e) s = .next (flashFailed e s) := by
  rw [syncDone, if_neg (by simp [hm]), stepFail_eq e s htx]

/-- Settles O33: the attempts are compared with the budget; what an exhausted Sync ends is the mode's. -/
theorem syncRetriesThenExhausts : Obligations.SyncRetriesThenExhausts := by
  intro s e htx hsync
  rw [seqOnCmd_sync _ hsync]
  refine ⟨syncOnResult_retry e, fun hlast => ?_⟩
  rw [syncOnResult_exhausted e hlast]
  exact ⟨fun hm => syncDone_err_syncOp (s := { s with syncLast := some e }) _ hm htx,
    fun hm => syncDone_err_flash (s := { s with syncLast := some e }) _ hm htx⟩

/-! ### The results of the steps of a flash (R186 to R192) -/

/-- Settles O35: the result of every step but Sync goes to a rule whose error case is `stepFail`. -/
theorem stepFailureAbortsFlash : Obligations.StepFailureAbortsFlash := by
  intro s e htx hm hne hsync
  rw [← stepFail_eq e s htx]
  cases hs : s.flashStep with
  | none => exact absurd hs hne
  | sync1 | sync2 | sync3 => simp [hs, FlashStep.isSync] at hsync
  | signature => simp [seqOnCmd, hm, hs, onSignature]
  | setOptions | enterProgmode => simp [seqOnCmd, hm, hs, onSimple]
  | upload | verify => simp [seqOnCmd, hm, hs, pageOnCmd, pageFail]
  | exitProgmode => simp [seqOnCmd, hm, hs, onExit]

/-- R183, R192: the success of a step that neither keeps its response nor runs the page loop. -/
theorem seqOnCmd_ok_step {s : State} (buf : Bytes) (hm : s.mode = .flash) (hne : s.flashStep ≠ .none)
    (hpaged : s.flashStep.isPaged = false) (hsig : s.flashStep ≠ .signature) :
    seqOnCmd (.ok buf) s = stepOk s := by
  cases hs : s.flashStep with
  | none => exact absurd hs hne
  | signature => exact absurd hs hsig
  | upload | verify => simp [hs, FlashStep.isPaged] at hpaged
  | sync1 | sync2 | sync3 => simp [seqOnCmd, hm, hs, syncOnResult, syncDone]
  | setOptions | enterProgmode => simp [seqOnCmd, hm, hs, onSimple]
  | exitProgmode => simp [seqOnCmd, hm, hs, onExit]

/-- R186, R192: the success of SIGNATURE keeps the response. -/
theorem seqOnCmd_ok_signature {s : State} (buf : Bytes) (hm : s.mode = .flash)
    (hs : s.flashStep = .signature) : seqOnCmd (.ok buf) s = stepOk (keepSignature buf s) := by
  simp [seqOnCmd, hm, hs, onSignature]

/-- R202: the first command of an iteration. -/
theorem loadAddress_eq (s : State) : loadAddress s =
    loadAddressIssued (s.pageAddr >>> 1) { s with wordAddr := s.pageAddr >>> 1, pg := .loadAddr } :=
  issueLoadAddress_eq _ (addressPage s)

/-- R201, R202: the page loop of an image that is not empty begins with cursor 0. -/
theorem pageBegin_eq {s : State} (pageDone : State → Res) (h : 0 < s.image.length) :
    pageBegin pageDone s =
      .next (loadAddressIssued 0 { s with pageAddr := 0, wordAddr := 0, pg := .loadAddr }) := by
  simp [pageBegin, pageNext, rewindCursor, List.length_pos_iff.mp h, loadAddress_eq]

section
variable {s : State} (htx : s.tx = .idle)
include htx

/-- R192, R185: SYNC1 or SYNC2 passed, and the next Sync begun. -/
theorem syncBegin_stepPassed (st : FlashStep) :
    syncBegin (enterStep st (stepSucceeded s)) =
      getSyncIssued { stepPassed st s with syncTry := 1, syncLast := none } := by
  rw [enterStep_stepSucceeded_eq st s htx, syncBegin_eq]

/-- R192: SYNC1 passed. -/
theorem stepOk_sync1 (hs : s.flashStep = .sync1) : stepOk s =
    .next (getSyncIssued { stepPassed .sync2 s with syncTry := 1, syncLast := none }) := by
  rw [← syncBegin_stepPassed htx .sync2]
  simp [stepOk, hs, beginStep]

/-- R192: SYNC2 passed. -/
theorem stepOk_sync2 (hs : s.flashStep = .sync2) : stepOk s =
    .next (getSyncIssued { stepPassed .sync3 s with syncTry := 1, syncLast := none }) := by
  rw [← syncBegin_stepPassed htx .sync3]
  simp [stepOk, hs, beginStep]

/-- R192: SYNC3 passed. -/
theorem stepOk_sync3 (hs : s.flashStep = .sync3) :
    stepOk s = .next (issueReadSign (stepPassed .signature s)) := by
  simp [stepOk, hs, beginStep, enterStep_stepSucceeded_eq _ s htx]

/-- R192: SIGNATURE passed. -/
theorem stepOk_signature (hs : s.flashStep = .signature) :
    stepOk s = .next (issueSetDevice s.profile.devparams (stepPassed .setOptions s)) := by
  simp [stepOk, hs, beginStep, enterStep_stepSucceeded_eq _ s htx]

/-- R192: SET_OPTIONS passed. -/
theorem stepOk_setOptions (hs : s.flashStep = .setOptions) :
    stepOk s = .next (issueEnterProgmode (stepPassed .enterProgmode s)) := by
  simp [stepOk, hs, beginStep, enterStep_stepSucceeded_eq _ s htx]

/-- R192, R200: ENTER_PROGMODE passed, and the page loop of Upload entered. -/
theorem stepOk_enterProgmode (hs : s.flashStep = .enterProgmode) :
    stepOk s = pageBegin uploadStepOk (stepPassed .upload s) := by
  simp [stepOk, hs, beginStep, beginUpload, enterStep_stepSucceeded_eq _ s htx]

/-- R192, R194: EXIT_PROGMODE passed ends the flash with `true`. -/
theorem stepOk_exitProgmode (hs : s.flashStep = .exitProgmode) :
    stepOk s = .next (endedWith (.ok (.flag true)) (stepSucceeded s)) := by
  simp [stepOk, hs, finish_eq _ (stepSucceeded s) ((stepSucceeded_tx s).trans htx)]

end

/-- Settles O36: each step's success is `stepOk`, and its begin the issue of the next step's command. -/
theorem stepSuccessBeginsNext : Obligations.StepSuccessBeginsNext := by
  intro s buf htx hm
  have hok (st : FlashStep) (hne : st ≠ .none) (hpaged : st.isPaged = false) (hsig : st ≠ .signature)
      (hs : s.flashStep = st) : seqOnCmd (.ok buf) s = stepOk s := by
    subst hs
    exact seqOnCmd_ok_step buf hm hne hpaged hsig
  refine ⟨fun hs => ?_, fun hs => ?_, fun hs => ?_, fun hs => ?_, fun hs => ?_, fun hs hl => ?_,
    fun hs => ?_⟩
  · rw [hok .sync1 nofun rfl nofun hs, stepOk_sync1 htx hs]
  · rw [hok .sync2 nofun rfl nofun hs, stepOk_sync2 htx hs]
  · rw [hok .sync3 nofun rfl nofun hs, stepOk_sync3 htx hs, issueReadSign_eq]
    rfl
  · rw [seqOnCmd_ok_signature buf hm hs, stepOk_signature (s := keepSignature buf s) htx hs,
      issueSetDevice_eq]
    rfl
  · rw [hok .setOptions nofun rfl nofun hs, stepOk_setOptions htx hs, issueEnterProgmode_eq]
    rfl
  · rw [hok .enterProgmode nofun rfl nofun hs, stepOk_enterProgmode htx hs,
      pageBegin_eq (s := stepPassed .upload s) _ hl]
  · rw [hok .exitProgmode nofun rfl nofun hs, stepOk_exitProgmode htx hs, stepSucceeded, traceEvent_eq,
      recordOutcome, hs]

end Sys2Proof.Machine
end

section
/-!
SUPPORT and PROOFS. Where an operation ends (spec/43_state_machine.md R194, R196, R197, R241). The frames and the
results among the outputs are read off as two streams. An event that begins no operation either moves the
receiver alone, which adds to neither stream, or hands a command's result to the sequencer, or is a tick of the
settle delay. The sequencer emits DONE exactly where it ends the operation. A device that never answers makes
it do so after the last attempt of SYNC1.
-/

namespace Sys2Proof.Machine

/-! ### The frames and the results among the outputs (R62, R97) -/

/-- R97, R194: the results of the operations that ended, in order. -/
def dones (outs : List Output) : List OpResult :=
  outs.filterMap fun o => match o with
    | .opDone r => some r
    | _ => none

@[simp] theorem writes_append (a b : List Output) : writes (a ++ b) = writes a ++ writes b :=
  List.filterMap_append

@[simp] theorem dones_append (a b : List Output) : dones (a ++ b) = dones a ++ dones b :=
  List.filterMap_append

@[simp] theorem writes_write (f : Bytes) : writes [.write f] = [f] := rfl
@[simp] theorem writes_opDone (r : OpResult) : writes [.opDone r] = [] := rfl
@[simp] theorem dones_write (f : Bytes) : dones [.write f] = [] := rfl
@[simp] theorem dones_opDone (r : OpResult) : dones [.opDone r] = [r] := rfl

@[simp] theorem writes_traceOf (d : Bool) (ev : TraceEvent) : writes (traceOf d ev) = [] := by
  cases d <;> rfl

@[simp] theorem dones_traceOf (d : Bool) (ev : TraceEvent) : dones (traceOf d ev) = [] := by
  cases d <;> rfl

/-- R194: the results are those of the DONEs. -/
theorem mem_dones {r : OpResult} {outs : List Output} : r ∈ dones outs ↔ .opDone r ∈ outs := by
  simp only [dones, List.mem_filterMap]
  constructor
  · rintro ⟨o, ho, hr⟩
    cases o with
    | opDone r' => cases hr; exact ho
    | _ => cases hr
  · exact fun h => ⟨_, h, rfl⟩

/-- R97: READ_REQ and READ_CANCEL, the outputs of the receiver. -/
def isRead : Output → Bool
  | .readReq => true
  | .readCancel => true
  | _ => false

/-- The receiver's outputs write no frame. -/
theorem writes_of_isRead {outs : List Output} (h : ∀ o ∈ outs, isRead o = true) : writes outs = [] := by
  refine List.filterMap_eq_nil_iff.mpr fun o ho => ?_
  have hread := h o ho
  cases o with
  | write f => cases hread
  | _ => rfl

/-- The receiver's outputs end no operation. -/
theorem dones_of_isRead {outs : List Output} (h : ∀ o ∈ outs, isRead o = true) : dones outs = [] := by
  refine List.filterMap_eq_nil_iff.mpr fun o ho => ?_
  have hread := h o ho
  cases o with
  | opDone r => cases hread
  | _ => rfl

/-! ### What an event other than a START can do, with its outputs -/

/-- From `s` to `t` only the receiver and the transceiver move, and only READ_REQ and READ_CANCEL are emitted. -/
structure ReadsOnly (s t : State) : Prop extends TransportOnly s t where
  pages : t.pages = s.pages
  outs : ∃ new, t.outs = s.outs ++ new ∧ ∀ o ∈ new, isRead o = true

/-- Where nothing is emitted, only the registers count. -/
theorem ReadsOnly.of_outs_eq {s t : State} (hl : t.latches = s.latches) (hs : t.session = s.session)
    (hp : t.pages = s.pages) (ho : t.outs = s.outs) : ReadsOnly s t :=
  ⟨⟨hl, hs⟩, hp, [], by simp [ho], nofun⟩

/-- One output of the receiver is emitted. -/
theorem ReadsOnly.of_read {s t : State} {o : Output} (hl : t.latches = s.latches)
    (hs : t.session = s.session) (hp : t.pages = s.pages) (ho : t.outs = s.outs ++ [o])
    (hread : isRead o = true) : ReadsOnly s t :=
  ⟨⟨hl, hs⟩, hp, [o], ho, by simpa using hread⟩

/-- The receiver writes no frame. -/
theorem ReadsOnly.writes_eq {s t : State} (h : ReadsOnly s t) : writes t.outs = writes s.outs := by
  obtain ⟨new, hnew, hread⟩ := h.outs
  rw [hnew, writes_append, writes_of_isRead hread, List.append_nil]

/-- The receiver ends no operation. -/
theorem ReadsOnly.dones_eq {s t : State} (h : ReadsOnly s t) : dones t.outs = dones s.outs := by
  obtain ⟨new, hnew, hread⟩ := h.outs
  rw [hnew, dones_append, dones_of_isRead hread, List.append_nil]

/-- The receiver does not end the operation. -/
theorem ReadsOnly.mode_eq {s t : State} (h : ReadsOnly s t) : t.mode = s.mode :=
  congrArg Session.mode h.session

/-- From `s` only the receiver moves, to a state with no command in flight, in which the sequencer is handed a
command's result and answers with `t` (R183). -/
def HandsResult (s t : State) : Prop :=
  ∃ r u, ReadsOnly s u ∧ u.tx = .idle ∧ seqOnCmd r u = .next t

/-- R116: the end of a receive hands a result to the sequencer. -/
theorem handsResult_of_rxFinish {r : Reply} {s u t : State} (h : rxFinish r u = .next t)
    (hu : ReadsOnly s u) : HandsResult s t := by
  rw [rxFinish_eq] at h
  exact ⟨_, commandOver (receiverOff u), ⟨⟨hu.latches, hu.session⟩, hu.pages, hu.outs⟩, rfl, h⟩

/-- R98, R140, R183, R209: at a listed position, an event that begins no operation moves the receiver alone, or
hands a command's result to the sequencer, or is a tick of the settle delay. -/
theorem exec_cases_of_event {i : Instr} {s t : State} (hc : ControlOk s) (hi : isStart i = false)
    (h : exec i s = .next t) :
    ReadsOnly s t ∨ HandsResult s t ∨ (s.pg = .settle ∧ settleTick s = .next t) := by
  cases i with
  | getSync | readSign | setDevice | enterProgmode | leaveProgmode | loadAddress | progPage | readPage =>
    have hissue := (execCommand_cases (k := s.params.k) rfl h).1
    simp [canIssue_of_controlOk hc] at hissue
  | tick =>
    rcases execTick_cases h with h | ⟨_, _, _, _, rfl⟩ | ⟨_, _, _, _, h⟩ | ⟨_, _, rfl⟩
    · exact .inr (.inr h)
    · exact .inl (.of_outs_eq rfl rfl rfl rfl)
    · exact .inr (.inl (handsResult_of_rxFinish h (.of_read rfl rfl rfl rfl rfl)))
    · exact .inl (.of_outs_eq rfl rfl rfl rfl)
  | chunk c =>
    rcases (execChunk_cases h).2 with ⟨_, h⟩ | ⟨_, h⟩ | ⟨_, rfl⟩
    · exact .inr (.inl (handsResult_of_rxFinish h (.of_outs_eq rfl rfl rfl rfl)))
    · exact .inr (.inl (handsResult_of_rxFinish h (.of_outs_eq rfl rfl rfl rfl)))
    · exact .inl (.of_read rfl rfl rfl rfl rfl)
  | eos => exact .inr (.inl (handsResult_of_rxFinish (execEos_cases h).2 (.of_outs_eq rfl rfl rfl rfl)))
  | readFail x =>
    exact .inr (.inl (handsResult_of_rxFinish (execReadFail_cases h).2 (.of_outs_eq rfl rfl rfl rfl)))
  | wackOk =>
    obtain ⟨_, rfl⟩ := execWackOk_cases h
    exact .inl (.of_read rfl rfl rfl rfl rfl)
  | wackFail x =>
    exact .inr (.inl ⟨_, commandOver s, .of_outs_eq rfl rfl rfl rfl, rfl, (execWackFail_cases h).2⟩)
  | startFlash | startSync | startCommand => cases hi

/-! ### DONE ends the operation (R194, R196, R241) -/

/-- From `s` to `t` no DONE is emitted, and an operation that runs goes on. -/
def GoesOn (s t : State) : Prop := dones t.outs = dones s.outs ∧ (t.mode = .idle → s.mode = .idle)

/-- From `s` to `t` one DONE is emitted; it ends the operation with its result. -/
def Ends (s t : State) : Prop :=
  ∃ r, dones t.outs = dones s.outs ++ [r] ∧ t.result = some r ∧ t.mode = .idle

/-- R194: the operation goes on, or ends with the one DONE. -/
def EndsAtDone (s t : State) : Prop := GoesOn s t ∨ Ends s t

/-- Operations that end nothing may go before. -/
theorem EndsAtDone.of_eq {s u t : State} (h : EndsAtDone u t) (hd : dones u.outs = dones s.outs)
    (hm : u.mode = s.mode) : EndsAtDone s t := by
  rwa [EndsAtDone, GoesOn, Ends, hd, hm] at h

/-- R140: with a command issued the operation goes on. -/
theorem endsAtDone_issue {s u : State} (q : Request) (hd : dones u.outs = dones s.outs)
    (hm : u.mode = s.mode) : EndsAtDone s (cmdIssue q u) :=
  .inl ⟨by simp [hd], fun h => hm.symm.trans h⟩

/-- R194: DONE ends the operation. -/
theorem endsAtDone_finish {s u : State} (r : OpResult) (hd : dones u.outs = dones s.outs) :
    EndsAtDone s (finish r u) :=
  .inr ⟨r, by simp [hd], rfl, rfl⟩

/-- R191: a failed step ends the operation. -/
theorem endsAtDone_stepFail {s u : State} (e : Err) (hd : dones u.outs = dones s.outs) :
    EndsAtDone s (stepFail e u) :=
  endsAtDone_finish _ (by simp [hd])

/-- R192: after the end of a step the flash goes on with a command, or ends. -/
theorem endsAtDone_of_stepOk {s t : State} (h : stepOk s = .next t) : EndsAtDone s t := by
  rcases stepOk_cases h with ⟨_, rfl⟩ | ⟨_, rfl⟩ | ⟨_, rfl⟩ | ⟨_, rfl⟩ | ⟨_, rfl⟩ | ⟨_, _, rfl⟩ |
    ⟨_, _, rfl⟩ | ⟨_, _, rfl⟩ | ⟨_, _, rfl⟩ | ⟨_, rfl⟩ | ⟨_, rfl⟩
  pick_goal 11
  · exact endsAtDone_finish _ (by simp)
  all_goals exact endsAtDone_issue _ (by simp) (by simp)

/-- R183: after a command's result the operation goes on, or ends. -/
theorem endsAtDone_of_seqOnCmd {r : Reply} {s t : State} (h : seqOnCmd r s = .next t) :
    EndsAtDone s t := by
  cases r with
  | ok buf =>
    rcases seqOnCmd_ok_cases h with ⟨_, rfl⟩ | ⟨_, _, _, h⟩ | ⟨_, _, h⟩ | ⟨_, _, _, rfl⟩ |
      ⟨_, _, _, rfl⟩ | ⟨_, _, _, rfl⟩ | ⟨_, _, _, _, rfl⟩ | ⟨_, _, _, _, rfl⟩
    · exact endsAtDone_finish _ rfl
    · exact endsAtDone_of_stepOk h
    · exact (endsAtDone_of_stepOk h).of_eq rfl rfl
    · exact endsAtDone_issue _ rfl rfl
    · exact endsAtDone_issue _ rfl rfl
    · exact .inl ⟨rfl, id⟩
    · exact .inl ⟨rfl, id⟩
    · exact endsAtDone_stepFail _ rfl
  | err e =>
    rcases seqOnCmd_err_cases h with ⟨_, rfl⟩ | ⟨_, _, rfl⟩ | ⟨_, _, rfl⟩ | ⟨_, _, _, rfl⟩ | ⟨_, _, _, rfl⟩
    · exact endsAtDone_finish _ rfl
    · exact endsAtDone_issue _ rfl rfl
    · exact endsAtDone_finish _ rfl
    · exact endsAtDone_stepFail _ rfl
    · exact endsAtDone_stepFail _ rfl

/-- R209 to R211: after a tick of the settle delay the flash goes on, or ends. -/
theorem endsAtDone_of_settleTick {s t : State} (h : settleTick s = .next t) : EndsAtDone s t := by
  rcases settleTick_cases h with ⟨_, rfl⟩ | ⟨_, _, rfl⟩ | ⟨_, _, h⟩
  · exact .inl ⟨rfl, id⟩
  · exact endsAtDone_issue _ rfl rfl
  · exact (endsAtDone_of_stepOk h).of_eq rfl rfl

/-- R180 to R182: a START begins an operation and ends none. -/
theorem goesOn_of_exec_start {i : Instr} {s t : State} (hi : isStart i = true) (h : exec i s = .next t) :
    GoesOn s t := by
  cases i with
  | startFlash img prof opts =>
    obtain ⟨hm, _, rfl⟩ := execStartFlash_cases h
    exact ⟨by simp [syncBegin, issueGetSync], fun _ => hm⟩
  | startSync a b =>
    obtain ⟨hm, rfl⟩ := execStartSync_cases h
    exact ⟨by simp [syncBegin, issueGetSync], fun _ => hm⟩
  | startCommand q =>
    obtain ⟨hm, rfl⟩ := execStartCommand_cases h
    exact ⟨by simp, fun _ => hm⟩
  | _ => cases hi

/-- R194: at a listed position every instruction emits DONE exactly where it ends the operation. -/
theorem endsAtDone_of_exec {i : Instr} {s t : State} (hc : ControlOk s) (h : exec i s = .next t) :
    EndsAtDone s t := by
  cases hi : isStart i with
  | true => exact .inl (goesOn_of_exec_start hi h)
  | false =>
    rcases exec_cases_of_event hc hi h with ht | ⟨r, u, hu, _, h⟩ | ⟨_, h⟩
    · exact .inl ⟨ht.dones_eq, fun hm => ht.mode_eq.symm.trans hm⟩
    · exact (endsAtDone_of_seqOnCmd h).of_eq hu.dones_eq hu.mode_eq
    · exact endsAtDone_of_settleTick h

/-- R196, R98: in a quiescent state with no operation running, only TICK and the STARTs are enabled. -/
theorem tick_or_start_of_enabled {s : State} {j : Instr} (hq : Quiescent s) (hm : s.mode = .idle)
    (h : enabled j s = true) : j = .tick ∨ isStart j = true := by
  obtain ⟨htx, _, hpend⟩ := hq.rx.idle_quiet hm
  have hissue := canIssue_of_controlOk hq.control
  cases j with
  | tick => exact .inl rfl
  | startFlash | startSync | startCommand => exact .inr rfl
  | chunk | eos | readFail => simp [enabled, hpend] at h
  | wackOk | wackFail => simp [enabled, htx] at h
  | _ => simp [enabled, hissue] at h

/-- Settles O56: the step appends outputs (O55), whose results are none or the one that ends the operation; the
state it ends in is quiescent (O48). -/
theorem doneEndsOperation : Obligations.DoneEndsOperation := by
  intro s t i hq h
  obtain ⟨new, hnew, _⟩ := oneRequestPerStep s t i hq h
  have hqt := quiescent_of_exec hq h
  refine ⟨new, hnew, ?_⟩
  rcases endsAtDone_of_exec hq.control h with ⟨hdones, hmode⟩ | ⟨r, hdones, hresult, hm⟩
  · have hnone : dones new = [] := by simpa [hnew] using hdones
    refine ⟨fun r hr => ?_, fun hrun hidle => absurd (hmode hidle) hrun⟩
    simp [← mem_dones, hnone] at hr
  · have hone : dones new = [r] := by simpa [hnew] using hdones
    refine ⟨fun r' hr => ?_, fun _ _ => ⟨r, mem_dones.mp (by simp [hone])⟩⟩
    obtain rfl : r' = r := by simpa [← mem_dones, hone] using hr
    obtain ⟨htx, _, hpend⟩ := hqt.rx.idle_quiet hm
    exact ⟨hresult, hm, htx, hpend, fun j => tick_or_start_of_enabled hqt hm⟩

/-! ### A device that never answers (R197, R123, R184) -/

/-- R123: a GET_SYNC that is acknowledged and then never answered is handed to the sequencer as Timeout, with
only the receiver moved since the WRITE. -/
theorem run_getSyncIssued_silent {s : State} {es : List Instr} (hpg : s.pg ≠ .settle)
    (hticks : tickCount es + 1 = s.timeout) (hes : ∀ e ∈ es, isSilent s.params.k.sof e = true) :
    ∃ u, run (.wackOk :: es ++ [.tick]) (getSyncIssued s) =
        seqOnCmd (.err (.timeout (some [s.params.k.getSync, s.params.k.eop]) s.timeout)) u ∧
      ReadsOnly (getSyncIssued s) u ∧ u.tx = .idle := by
  have hack : run [.wackOk] (getSyncIssued s) = .next (rxStart 2 s.timeout (getSyncIssued s)) :=
    (run_singleton _ _).trans (exec_wackOk_eq rfl)
  have hpos : 0 < s.timeout := by omega
  have hfires := (silentReceiveTimesOut (rxStart 2 s.timeout (getSyncIssued s)) es
    ⟨rfl, rfl, rfl, rfl, rfl⟩ hpg hpos rfl Nat.zero_lt_two hes hticks).2
  refine ⟨_, (run_append_of_next hack).trans hfires, ⟨⟨rfl, rfl⟩, rfl,
    .readReq :: List.replicate (es.length - tickCount es) .readReq ++ [.readCancel], ?_, ?_⟩, rfl⟩
  · simp
  · intro o ho
    have hkind : o = .readReq ∨ o = .readCancel := by simp at ho; tauto
    rcases hkind with rfl | rfl <;> rfl

/-- R184: SYNC1 of a flash that has passed no step is at attempt `tries`, and `sent` GET_SYNCs follow the frames
`w` written before. -/
structure FirstSync (p : Params) (attempts timeout : Nat) (w : List Bytes) (tries sent : Nat)
    (s : State) : Prop where
  params : s.params = p
  attempts : s.attempts = attempts
  timeout : s.timeout = timeout
  mode : s.mode = .flash
  flashStep : s.flashStep = .sync1
  pg : s.pg = .none
  timeline : s.timeline = []
  syncTry : s.syncTry = tries
  writes : writes s.outs = w ++ List.replicate sent [p.k.getSync, p.k.eop]

/-- R180: a new session is at the first attempt of SYNC1. -/
theorem firstSync_startFlash (img : Bytes) (prof : Profile) (opts : Options) (s : State) :
    FirstSync s.params opts.attempts opts.timeout (writes s.outs) 1 0
      (firstAttempt (enterStep .sync1 (openSession img prof opts s))) := by
  constructor <;> simp

section
variable {p : Params} {a b tries n : Nat} {w : List Bytes} {s u : State}
  (h : FirstSync p a b w tries n s)
include h

/-- R160: an attempt that was written and not answered has sent one more GET_SYNC. -/
theorem FirstSync.sent (hu : ReadsOnly (getSyncIssued s) u) : FirstSync p a b w tries (n + 1) u where
  params := (congrArg Latches.params hu.latches).trans h.params
  attempts := (congrArg Latches.attempts hu.latches).trans h.attempts
  timeout := (congrArg Latches.timeout hu.latches).trans h.timeout
  mode := (congrArg Session.mode hu.session).trans h.mode
  flashStep := (congrArg Session.flashStep hu.session).trans h.flashStep
  pg := (congrArg Pages.pg hu.pages).trans h.pg
  timeline := (congrArg Session.timeline hu.session).trans h.timeline
  syncTry := (congrArg Session.syncTry hu.session).trans h.syncTry
  writes := by
    rw [hu.writes_eq]
    simp [getSyncIssued, issuedAs, h.writes, h.params, List.replicate_succ']

/-- R184: the next attempt is counted. -/
theorem FirstSync.next (e : Err) :
    FirstSync p a b w (tries + 1) n { s with syncLast := some e, syncTry := s.syncTry + 1 } :=
  { h with syncTry := congrArg (· + 1) h.syncTry }

/-- R123, R183: a silent attempt ends in Timeout. -/
theorem FirstSync.silent {es : List Instr} (hticks : tickCount es + 1 = b)
    (hes : ∀ e ∈ es, isSilent p.k.sof e = true) :
    ∃ u, run (.wackOk :: es ++ [.tick]) (getSyncIssued s) =
        seqOnCmd (.err (.timeout (some [p.k.getSync, p.k.eop]) b)) u ∧
      FirstSync p a b w tries (n + 1) u ∧ u.tx = .idle := by
  obtain ⟨u, hrun, hreads, htx⟩ := run_getSyncIssued_silent (s := s) (es := es) (by simp [h.pg])
    (hticks.trans h.timeout.symm) (by rwa [h.params])
  rw [h.params, h.timeout] at hrun
  exact ⟨u, hrun, h.sent hreads, htx⟩

/-- R184: after a silent attempt that is not the last, the next one is written. -/
theorem FirstSync.silent_retry {es : List Instr} (hticks : tickCount es + 1 = b)
    (hes : ∀ e ∈ es, isSilent p.k.sof e = true) (htries : tries < max a 1) :
    ∃ t, run (.wackOk :: es ++ [.tick]) (getSyncIssued s) = .next (getSyncIssued t) ∧
      FirstSync p a b w (tries + 1) (n + 1) t := by
  obtain ⟨u, hrun, hu, htx⟩ := h.silent hticks hes
  have hsync : u.mode = .flash ∧ u.flashStep.isSync = true := ⟨hu.mode, by rw [hu.flashStep]; rfl⟩
  have hretry := (syncRetriesThenExhausts u (.timeout (some [p.k.getSync, p.k.eop]) b) htx (.inr hsync)).1
    (by rwa [hu.attempts, hu.syncTry])
  exact ⟨_, hrun.trans hretry, hu.next _⟩

/-- R184, R191: after the last silent attempt the flash is aborted. -/
theorem FirstSync.silent_exhausted {es : List Instr} (hticks : tickCount es + 1 = b)
    (hes : ∀ e ∈ es, isSilent p.k.sof e = true) (htries : max a 1 ≤ tries) :
    ∃ u, run (.wackOk :: es ++ [.tick]) (getSyncIssued s) = .next (flashFailed
        (.syncExhausted (max a 1) (.timeout (some [p.k.getSync, p.k.eop]) b)) u) ∧
      FirstSync p a b w tries (n + 1) u := by
  obtain ⟨u, hrun, hu, htx⟩ := h.silent hticks hes
  have hsync : u.mode = .flash ∧ u.flashStep.isSync = true := ⟨hu.mode, by rw [hu.flashStep]; rfl⟩
  have hfail := ((syncRetriesThenExhausts u (.timeout (some [p.k.getSync, p.k.eop]) b) htx (.inr hsync)).2
    (by rwa [hu.attempts, hu.syncTry])).2 hu.mode
  have hbudget : max u.attempts 1 = max a 1 := by rw [hu.attempts]
  rw [hbudget] at hfail
  exact ⟨_, hrun.trans hfail, { hu with }⟩

end

/-- Settles O59: two silent attempts are followed by the next, the third by the end of the flash. -/
theorem silentDeviceExhaustsSync : Obligations.SilentDeviceExhaustsSync := by
  intro s img prof opts e1 e2 e3 hm hprof hattempts hes
  simp only [List.mem_cons, List.not_mem_nil, or_false, forall_eq_or_imp, forall_eq] at hes
  obtain ⟨⟨hticks1, hes1⟩, ⟨hticks2, hes2⟩, hticks3, hes3⟩ := hes
  have hbudget : max opts.attempts 1 = 3 := by rw [hattempts]; rfl
  have hrun0 : run [.startFlash img prof opts] s =
      .next (getSyncIssued (firstAttempt (enterStep .sync1 (openSession img prof opts s)))) := by
    rw [run_singleton, exec_startFlash_eq hm hprof, syncBegin, issueGetSync_eq]
  obtain ⟨t1, hrun1, ht1⟩ := (firstSync_startFlash img prof opts s).silent_retry hticks1 hes1 (by omega)
  obtain ⟨t2, hrun2, ht2⟩ := ht1.silent_retry hticks2 hes2 (by omega)
  obtain ⟨u, hrun3, hu⟩ := ht2.silent_exhausted hticks3 hes3 (by omega)
  have hrun01 := (run_append_of_next hrun0).trans hrun1
  have hrun02 := (run_append_of_next hrun01).trans hrun2
  rw [hbudget] at hrun3
  refine ⟨_, (run_append_of_next hrun02).trans hrun3, rfl, ?_, ?_, ?_⟩
  · simp [flashFailed, hu.flashStep]
  · simp [flashFailed, hu.flashStep, hu.timeline, Err.kind]
  · simp [flashFailed, hu.writes]

end Sys2Proof.Machine
end

section
/-!
SUPPORT and PROOFS. The frames of a flash (spec/43_state_machine.md R195, R215). While a flash runs, the frames
written are those of the passed steps, each complete, and those of the current step so far: one GET_SYNC for each
attempt, the one command of a step without a loop, or the commands of the pages up to the cursor. Every event
keeps this: the receiver writes nothing, and the sequencer issues one command or passes a step that is complete.
-/

namespace Sys2Proof.Machine

/-! ### The cursors of the page loop (R201, R204, R208) -/

/-- R200, R208: the page loop has transferred the pages of the cursors `cs` and has come to cursor `a`. -/
inductive PagesDone (rule : ClipRule) (l p : Nat) : List Nat → Nat → Prop
  | start : PagesDone rule l p [] 0
  | page {cs : List Nat} {a : Nat} :
      PagesDone rule l p cs a → a < l → PagesDone rule l p (cs ++ [a]) (clipEnd rule l p a)

/-- R201: what the loop has done and what it does from its cursor on are one run of it. -/
theorem PagesDone.append {rule : ClipRule} {l p a : Nat} {cs rest : List Nat}
    (h : PagesDone rule l p cs a) (hrest : IsPageRun rule l p a rest) :
    IsPageRun rule l p 0 (cs ++ rest) := by
  induction h generalizing rest with
  | start => exact hrest
  | page _ ha ih =>
    rw [List.append_assoc]
    exact ih ⟨rfl, ha, hrest⟩

/-- R201: the loop ends at a cursor that is not inside the image. -/
theorem PagesDone.isPageRun {rule : ClipRule} {l p a : Nat} {cs : List Nat}
    (h : PagesDone rule l p cs a) (ha : l ≤ a) : IsPageRun rule l p 0 cs := by
  simpa using h.append (rest := []) ha

/-- R204: the image and the page size determine the cursors. -/
theorem IsPageRun.unique {rule : ClipRule} {l p a : Nat} {cs cs' : List Nat}
    (h : IsPageRun rule l p a cs) (h' : IsPageRun rule l p a cs') : cs = cs' := by
  induction cs generalizing a cs' with
  | nil =>
    cases cs' with
    | nil => rfl
    | cons b r => exact absurd h'.2.1 (Nat.not_lt.mpr h)
  | cons c cs ih =>
    obtain ⟨rfl, ha, h⟩ := h
    cases cs' with
    | nil => exact absurd ha (Nat.not_lt.mpr h')
    | cons b r =>
      obtain ⟨rfl, _, h'⟩ := h'
      rw [ih h h']

/-- R203, R208: the slice of a cursor inside the image ends at the next cursor. -/
theorem add_currentSlice_length {s : State} (h : s.pageAddr < s.image.length) :
    s.pageAddr + (currentSlice s).length =
      clipEnd s.params.clipRule s.image.length s.profile.p s.pageAddr := by
  rw [currentSlice_length s h, Nat.add_sub_cancel' (le_clipEnd _ h)]

/-! ### The frames of a step -/

/-- R160 to R164: the frame of the command of a step without a page loop. -/
def commandFrame (l : Latches) : FlashStep → Bytes
  | .sync1 | .sync2 | .sync3 => [l.params.k.getSync, l.params.k.eop]
  | .signature => [l.params.k.readSign, l.params.k.eop]
  | .setOptions => [l.params.k.setDevice] ++ l.profile.devparams ++ [l.params.k.eop]
  | .enterProgmode => [l.params.k.enterProgmode, l.params.k.eop]
  | .exitProgmode => [l.params.k.leaveProgmode, l.params.k.eop]
  | .none | .upload | .verify => []

/-- R203, R205, R206: the frame of the page command at cursor `a`. -/
def pageCommandFrame (l : Latches) (st : FlashStep) (a : Nat) : Bytes :=
  if st = .upload then progFrame l.params.k (sliceAt l.params.clipRule l.image l.profile.p a)
  else readFrame l.params.k
    (countFor l.params l.profile.p (sliceAt l.params.clipRule l.image l.profile.p a).length)

/-- R202, R203: the frames of the iteration at cursor `a`. -/
def pageFrames (l : Latches) (st : FlashStep) (a : Nat) : List Bytes :=
  [loadFrameAt l.params.k a, pageCommandFrame l st a]

/-- R184, R185, R200: the frames of a step that passed. -/
inductive StepSent (l : Latches) (st : FlashStep) : List Bytes → Prop
  | sync {n : Nat} : st.isSync = true → 1 ≤ n → n ≤ max l.attempts 1 →
      StepSent l st (List.replicate n (commandFrame l st))
  | single : st.isSync = false → st.isPaged = false → StepSent l st [commandFrame l st]
  | paged {cs : List Nat} : st.isPaged = true →
      IsPageRun l.params.clipRule l.image.length l.profile.p 0 cs →
      StepSent l st (cs.flatMap (pageFrames l st))

/-- R202, R203: the frames of the current iteration so far. -/
def pendingFrames (l : Latches) (s : State) : List Bytes :=
  match s.pg with
  | .loadAddr => [loadFrameAt l.params.k s.pageAddr]
  | .pageCmd => pageFrames l s.flashStep s.pageAddr
  | .none | .settle => []

/-- R200, R208: the frames of the pages that the loop of the current step has transferred. -/
def PagesSent (l : Latches) (s : State) (w : List Bytes) : Prop :=
  ∃ cs, PagesDone l.params.clipRule l.image.length l.profile.p cs s.pageAddr ∧
    w = cs.flatMap (pageFrames l s.flashStep)

/-- R184, R185, R200: the frames of the current step so far. -/
inductive StepSending (l : Latches) (s : State) : List Bytes → Prop
  | sync : s.flashStep.isSync = true →
      StepSending l s (List.replicate s.syncTry (commandFrame l s.flashStep))
  | single : s.flashStep.isSync = false → s.flashStep.isPaged = false →
      StepSending l s [commandFrame l s.flashStep]
  | paged {w : List Bytes} : s.flashStep.isPaged = true → PagesSent l s w →
      StepSending l s (w ++ pendingFrames l s)

/-- No step runs both Sync and the page loop. -/
theorem FlashStep.isPaged_of_isSync {st : FlashStep} (h : st.isSync = true) : st.isPaged = false := by
  cases st with
  | sync1 | sync2 | sync3 => rfl
  | _ => cases h

/-- R184: the frames of a Sync step that passed. -/
theorem StepSent.syncs {l : Latches} {st : FlashStep} {w : List Bytes} (h : StepSent l st w)
    (hst : st.isSync = true) :
    ∃ n, (1 ≤ n ∧ n ≤ max l.attempts 1) ∧ w = List.replicate n (commandFrame l st) := by
  cases h with
  | sync _ h1 h2 => exact ⟨_, ⟨h1, h2⟩, rfl⟩
  | single h => simp [hst] at h
  | paged h => simp [FlashStep.isPaged_of_isSync hst] at h

/-- R185: the frame of a step of one command that passed. -/
theorem StepSent.command {l : Latches} {st : FlashStep} {w : List Bytes} (h : StepSent l st w)
    (hsync : st.isSync = false) (hpaged : st.isPaged = false) : w = [commandFrame l st] := by
  cases h with
  | sync h => simp [hsync] at h
  | single => rfl
  | paged h => simp [hpaged] at h

/-- R200: the frames of a paged step that passed. -/
theorem StepSent.pages {l : Latches} {st : FlashStep} {w : List Bytes} (h : StepSent l st w)
    (hst : st.isPaged = true) :
    ∃ cs, IsPageRun l.params.clipRule l.image.length l.profile.p 0 cs ∧
      w = cs.flatMap (pageFrames l st) := by
  cases h with
  | sync h => simp [FlashStep.isPaged_of_isSync h] at hst
  | single _ h => simp [hst] at h
  | paged _ h => exact ⟨_, h, rfl⟩

/-- R200: the frames of a paged step that runs. -/
theorem StepSending.pages {l : Latches} {s : State} {w : List Bytes} (h : StepSending l s w)
    (hst : s.flashStep.isPaged = true) :
    ∃ w', PagesSent l s w' ∧ w = w' ++ pendingFrames l s := by
  cases h with
  | sync h => simp [FlashStep.isPaged_of_isSync h] at hst
  | single _ h => simp [hst] at h
  | paged _ h => exact ⟨_, h, rfl⟩

/-- R184: the frames of a Sync step that runs. -/
theorem StepSending.syncs {l : Latches} {s : State} {w : List Bytes} (h : StepSending l s w)
    (hst : s.flashStep.isSync = true) :
    w = List.replicate s.syncTry (commandFrame l s.flashStep) := by
  cases h with
  | sync => rfl
  | single h => simp [hst] at h
  | paged h => simp [FlashStep.isPaged_of_isSync hst] at h

/-- The frames of the current step are told by STEP, SYNC_TRY and the page registers. -/
theorem StepSending.of_eq {l : Latches} {s t : State} {w : List Bytes} (h : StepSending l s w)
    (hst : t.flashStep = s.flashStep) (htry : t.syncTry = s.syncTry) (hpg : t.pg = s.pg)
    (haddr : t.pageAddr = s.pageAddr) : StepSending l t w := by
  cases h with
  | sync h => rw [← hst, ← htry]; exact .sync (by rwa [hst])
  | single h1 h2 => rw [← hst]; exact .single (by rwa [hst]) (by rwa [hst])
  | @paged w h1 h2 =>
    have hpending : pendingFrames l t = pendingFrames l s := by
      rw [pendingFrames, pendingFrames, hpg, haddr, hst]
    rw [← hpending]
    exact .paged (by rwa [hst]) (by rwa [PagesSent, hst, haddr])

/-- R192: when a step without a page loop passes, its frames are complete. -/
theorem StepSending.complete {l : Latches} {s : State} {w : List Bytes} (h : StepSending l s w)
    (hst : s.flashStep.isPaged = false)
    (htries : s.flashStep.isSync = true → 1 ≤ s.syncTry ∧ s.syncTry ≤ max l.attempts 1) :
    StepSent l s.flashStep w := by
  cases h with
  | sync h => exact .sync h (htries h).1 (htries h).2
  | single h1 h2 => exact .single h1 h2
  | paged h => simp [hst] at h

/-! ### The frames of a flash -/

/-- R192, R195: `v` are the frames `w₀` written before the flash and those of the steps before `st`. -/
def PassedSent (l : Latches) (w₀ : List Bytes) (st : FlashStep) (v : List Bytes) : Prop :=
  ∃ ws, List.Forall₂ (StepSent l) st.before ws ∧ v = w₀ ++ ws.flatten

/-- R192: with its last step complete, one step more has passed. -/
theorem PassedSent.pass {l : Latches} {w₀ v w : List Bytes} {st st' : FlashStep}
    (hv : PassedSent l w₀ st v) (hw : StepSent l st w) (hnext : st'.before = st.before ++ [st]) :
    PassedSent l w₀ st' (v ++ w) := by
  obtain ⟨ws, hws, rfl⟩ := hv
  refine ⟨ws ++ [w], ?_, by simp⟩
  rw [hnext]
  exact List.rel_append hws (.cons hw .nil)

/-- In a flash with the latches `l`, the frames written are those of the passed steps, and frames of the current
step of which `Q` holds. -/
structure FlashSent (l : Latches) (w₀ : List Bytes) (Q : List Bytes → Prop) (s : State) : Prop where
  latches : s.latches = l
  mode : s.mode = .flash
  frames : ∃ v w, PassedSent l w₀ s.flashStep v ∧ Q w ∧ writes s.outs = v ++ w

section
variable {l : Latches} {w₀ : List Bytes} {Q R : List Bytes → Prop} {s t : State}
  (h : FlashSent l w₀ Q s)
include h

/-- Operations that leave the latches, the step and the frames alone. -/
theorem FlashSent.of_eq (hl : t.latches = s.latches) (hm : t.mode = s.mode)
    (hst : t.flashStep = s.flashStep) (hw : writes t.outs = writes s.outs) : FlashSent l w₀ Q t :=
  ⟨hl.trans h.latches, hm.trans h.mode, by rw [hst, hw]; exact h.frames⟩

/-- What follows of the frames of the current step. -/
theorem FlashSent.mono (hQR : ∀ w, Q w → R w) : FlashSent l w₀ R s :=
  let ⟨v, w, hv, hw, heq⟩ := h.frames
  ⟨h.latches, h.mode, v, w, hv, hQR w hw, heq⟩

/-- R140: a command issued is one frame more of the current step. -/
theorem FlashSent.issue (q : Request) (hQR : ∀ w, Q w → R (w ++ [buildFrame l.params.k q])) :
    FlashSent l w₀ R (cmdIssue q s) := by
  obtain ⟨v, w, hv, hw, heq⟩ := h.frames
  obtain rfl := h.latches
  exact ⟨rfl, h.mode, v, _, hv, hQR w hw, by simp [heq, State.latches]⟩

end

/-- R192, R185: the flash is in a step of which nothing is sent yet. -/
def StepEntered (l : Latches) (w₀ : List Bytes) (s : State) : Prop := FlashSent l w₀ (· = []) s

/-- R192: the flash is in a step of which everything is sent. -/
def StepComplete (l : Latches) (w₀ : List Bytes) (s : State) : Prop :=
  FlashSent l w₀ (StepSent l s.flashStep) s

/-- R195: the flash runs, its current step in progress. -/
def Flashing (l : Latches) (w₀ : List Bytes) (s : State) : Prop := FlashSent l w₀ (StepSending l s) s

/-- R192, R195: the flash has ended with `true`, all nine steps passed. -/
structure Flashed (l : Latches) (w₀ : List Bytes) (s : State) : Prop where
  mode : s.mode = .idle
  timeline : s.timeline = passedBefore .exitProgmode ++ [(.exitProgmode, .ok)]
  frames : ∃ v w, PassedSent l w₀ .exitProgmode v ∧ StepSent l .exitProgmode w ∧ writes s.outs = v ++ w

/-- R191: the flash has been aborted. -/
structure FlashAborted (s : State) : Prop where
  mode : s.mode = .idle
  result : ∃ e, s.result = some (.err e)

/-- R191, R192: a flash runs, has ended with `true`, or has been aborted. -/
inductive FlashAt (l : Latches) (w₀ : List Bytes) (s : State) : Prop
  | running : Flashing l w₀ s → FlashAt l w₀ s
  | passed : Flashed l w₀ s → FlashAt l w₀ s
  | aborted : FlashAborted s → FlashAt l w₀ s

/-! ### A step is entered and passed (R185, R192) -/

section
variable {l : Latches} {w₀ : List Bytes} {s : State}

/-- R192, R185: after a complete step the next one is entered. -/
theorem StepComplete.enter (h : StepComplete l w₀ s) (st : FlashStep)
    (hnext : st.before = s.flashStep.before ++ [s.flashStep]) :
    StepEntered l w₀ (enterStep st (stepSucceeded s)) := by
  obtain ⟨v, w, hv, hw, heq⟩ := h.frames
  obtain rfl := h.latches
  exact ⟨by simp [State.latches], by simp [h.mode], v ++ w, [], by simpa using hv.pass hw hnext, rfl,
    by simp [heq]⟩

/-- R160: GET_SYNC is the command of the Sync steps. -/
theorem buildFrame_getSync (s : State) {st : FlashStep} (hst : st.isSync = true) :
    buildFrame s.params.k (getSyncRequest s) = commandFrame s.latches st := by
  cases st with
  | sync1 | sync2 | sync3 => rfl
  | _ => cases hst

/-- R202: the frame of the LOAD_ADDRESS of an iteration. -/
theorem buildFrame_loadAddress (a : Nat) (s : State) :
    buildFrame s.params.k (loadAddressRequest (wordAddrOf a) s) = loadFrameAt s.params.k a := by
  simp [buildFrame, loadAddressRequest, ackRequest, loadFrameAt, wordAddrOf, Nat.shiftRight_eq_div_pow]

/-- R184: a Sync step begins with its first GET_SYNC. -/
theorem StepEntered.sync (h : StepEntered l w₀ s) (hst : s.flashStep.isSync = true) :
    Flashing l w₀ (syncBegin s) := by
  have hfirst : StepEntered l w₀ (firstAttempt s) := FlashSent.of_eq h rfl rfl rfl rfl
  obtain rfl := h.latches
  refine FlashSent.issue hfirst _ ?_
  rintro _ rfl
  exact buildFrame_getSync (firstAttempt s) hst ▸ StepSending.sync (s := syncBegin s) hst

/-- R185: a step of one command begins with it. -/
theorem StepEntered.command (h : StepEntered l w₀ s) (q : Request) (hsync : s.flashStep.isSync = false)
    (hpaged : s.flashStep.isPaged = false) (hq : buildFrame l.params.k q = commandFrame l s.flashStep) :
    Flashing l w₀ (cmdIssue q s) := by
  refine FlashSent.issue h q ?_
  rintro _ rfl
  rw [hq]
  exact .single hsync hpaged

/-- R192, R185: after a complete step, a step of one command begins with it. -/
theorem StepComplete.command (h : StepComplete l w₀ s) (st : FlashStep)
    (hnext : st.before = s.flashStep.before ++ [s.flashStep]) (hsync : st.isSync = false)
    (hpaged : st.isPaged = false) (q : Request) (hq : buildFrame l.params.k q = commandFrame l st) :
    Flashing l w₀ (cmdIssue q (enterStep st (stepSucceeded s))) :=
  (h.enter st hnext).command q (by simpa using hsync) (by simpa using hpaged) (by simpa using hq)

/-- R201, R208: the flash is in the page loop, between two iterations. -/
def BetweenPages (l : Latches) (w₀ : List Bytes) (s : State) : Prop := FlashSent l w₀ (PagesSent l s) s

/-- R200: the page loop begins with no page transferred. -/
theorem StepEntered.rewind (h : StepEntered l w₀ s) : BetweenPages l w₀ (rewindCursor s) := by
  refine FlashSent.mono (FlashSent.of_eq h rfl rfl rfl rfl) ?_
  rintro _ rfl
  exact ⟨[], .start, rfl⟩

/-- R202: an iteration begins with its LOAD_ADDRESS. -/
theorem BetweenPages.loadAddress (h : BetweenPages l w₀ s) (hst : s.flashStep.isPaged = true) :
    Flashing l w₀ (loadAddress s) := by
  have haddressed : FlashSent l w₀ (PagesSent l s) (addressPage s) := FlashSent.of_eq h rfl rfl rfl rfl
  obtain rfl := h.latches
  refine FlashSent.issue haddressed _ fun w hw => ?_
  exact buildFrame_loadAddress s.pageAddr (addressPage s) ▸
    StepSending.paged (s := Machine.loadAddress s) hst hw

/-- R201, R211: the loop that has come to the end of the image is complete. -/
theorem BetweenPages.complete (h : BetweenPages l w₀ s) (hst : s.flashStep.isPaged = true)
    (hend : s.image.length ≤ s.pageAddr) : StepComplete l w₀ (leavePage s) := by
  refine FlashSent.mono (FlashSent.of_eq h rfl rfl rfl rfl) ?_
  obtain rfl := h.latches
  rintro _ ⟨cs, hcs, rfl⟩
  exact .paged hst (hcs.isPageRun hend)

/-- R201: the loop of an empty image is complete at once. -/
theorem StepComplete.skip (h : StepComplete l w₀ s) (st : FlashStep)
    (hnext : st.before = s.flashStep.before ++ [s.flashStep]) (hst : st.isPaged = true)
    (himg : s.image.length = 0) :
    StepComplete l w₀ (leavePage (rewindCursor (enterStep st (stepSucceeded s)))) :=
  (h.enter st hnext).rewind.complete (by simpa using hst) (by simp [himg])

/-- R190, R192: after Verify, LEAVE_PROGMODE is written. -/
theorem StepComplete.exit (h : StepComplete l w₀ s) (hs : s.flashStep = .verify) :
    Flashing l w₀ (beginExitProgmode (stepSucceeded s)) := by
  obtain rfl := h.latches
  exact h.command .exitProgmode (by rw [hs]; rfl) rfl rfl _
    (by simp [buildFrame, leaveProgmodeRequest, ackRequest, commandFrame, State.latches])

/-- R192: the end of a complete step begins the next, or ends the flash. -/
theorem StepComplete.stepOk {t : State} (h : StepComplete l w₀ s)
    (htimeline : s.timeline = passedBefore s.flashStep) (hok : stepOk s = .next t) : FlashAt l w₀ t := by
  obtain rfl := h.latches
  rcases stepOk_cases hok with ⟨hs, rfl⟩ | ⟨hs, rfl⟩ | ⟨hs, rfl⟩ | ⟨hs, rfl⟩ | ⟨hs, rfl⟩ | ⟨hs, _, rfl⟩ |
    ⟨hs, himg, rfl⟩ | ⟨hs, _, rfl⟩ | ⟨hs, himg, rfl⟩ | ⟨hs, rfl⟩ | ⟨hs, rfl⟩
  · exact .running ((h.enter .sync2 (by rw [hs]; rfl)).sync (by simp [FlashStep.isSync]))
  · exact .running ((h.enter .sync3 (by rw [hs]; rfl)).sync (by simp [FlashStep.isSync]))
  · exact .running (h.command .signature (by rw [hs]; rfl) rfl rfl _
      (by simp [buildFrame, readSignRequest, lengthRequest, commandFrame, State.latches]))
  · exact .running (h.command .setOptions (by rw [hs]; rfl) rfl rfl _
      (by simp [buildFrame, setDeviceRequest, ackRequest, commandFrame, State.latches]))
  · exact .running (h.command .enterProgmode (by rw [hs]; rfl) rfl rfl _
      (by simp [buildFrame, enterProgmodeRequest, ackRequest, commandFrame, State.latches]))
  · exact .running ((h.enter .upload (by rw [hs]; rfl)).rewind.loadAddress (by simp [FlashStep.isPaged]))
  · have hupload := h.skip .upload (by rw [hs]; rfl) rfl himg
    have hverify := hupload.skip .verify (by simp [FlashStep.before]) rfl (by simpa using himg)
    exact .running (hverify.exit (by simp))
  · exact .running ((h.enter .verify (by rw [hs]; rfl)).rewind.loadAddress (by simp [FlashStep.isPaged]))
  · have hverify := h.skip .verify (by rw [hs]; rfl) rfl himg
    exact .running (hverify.exit (by simp))
  · exact .running (h.exit hs)
  · have hframes := h.frames
    rw [hs] at hframes
    exact .passed ⟨rfl, by simp [htimeline, hs], by simpa using hframes⟩

/-! ### The result of a command (R183, R184, R203) -/

/-- Operations that leave the latches, the position and the frames alone. -/
theorem Flashing.of_eq {t : State} (h : Flashing l w₀ s) (hl : t.latches = s.latches)
    (hs : t.session = s.session) (hpg : t.pg = s.pg) (haddr : t.pageAddr = s.pageAddr)
    (hw : writes t.outs = writes s.outs) : Flashing l w₀ t := by
  have hst : t.flashStep = s.flashStep := congrArg Session.flashStep hs
  refine FlashSent.mono (FlashSent.of_eq h hl (congrArg Session.mode hs) hst hw) fun w hw => ?_
  exact hw.of_eq hst (congrArg Session.syncTry hs) hpg haddr

/-- The receiver leaves a flash where it is. -/
theorem Flashing.of_readsOnly {t : State} (h : Flashing l w₀ s) (ht : ReadsOnly s t) : Flashing l w₀ t :=
  h.of_eq ht.latches ht.session (congrArg Pages.pg ht.pages) (congrArg Pages.pageAddr ht.pages)
    ht.writes_eq

/-- R192: a step without a page loop is complete when its command succeeds. -/
theorem Flashing.complete (h : Flashing l w₀ s) (hs : SessionInvariant s)
    (hst : s.flashStep.isPaged = false) : StepComplete l w₀ s := by
  refine FlashSent.mono h fun w hw => hw.complete hst fun hsync => ?_
  obtain rfl := h.latches
  exact hs.tries (.inr ⟨h.mode, hsync⟩)

/-- R184: another attempt is one GET_SYNC more. -/
theorem Flashing.retry (h : Flashing l w₀ s) (e : Err) (hst : s.flashStep.isSync = true) :
    Flashing l w₀ (issueGetSync (nextAttempt (attemptFailed e s))) := by
  have hnext : FlashSent l w₀ (StepSending l s) (nextAttempt (attemptFailed e s)) :=
    FlashSent.of_eq h rfl rfl rfl rfl
  obtain rfl := h.latches
  refine FlashSent.issue hnext _ fun w hw => ?_
  have hframe : buildFrame s.latches.params.k (getSyncRequest (nextAttempt (attemptFailed e s))) =
      commandFrame s.latches s.flashStep := buildFrame_getSync (nextAttempt (attemptFailed e s)) hst
  rw [hw.syncs hst, hframe, ← List.replicate_succ']
  exact StepSending.sync (s := issueGetSync (nextAttempt (attemptFailed e s))) hst

/-- R203: an acknowledged LOAD_ADDRESS is followed by the page command of the same cursor. -/
theorem Flashing.pageCommand (h : Flashing l w₀ s) (hst : s.flashStep.isPaged = true)
    (hp : s.pg = .loadAddr) (q : Request)
    (hq : buildFrame l.params.k q = pageCommandFrame l s.flashStep s.pageAddr) :
    Flashing l w₀ (cmdIssue q (fetchSlice s)) := by
  have hfetched : FlashSent l w₀ (StepSending l s) (fetchSlice s) := FlashSent.of_eq h rfl rfl rfl rfl
  refine FlashSent.issue hfetched q fun w hw => ?_
  obtain ⟨w', hw', rfl⟩ := hw.pages hst
  rw [pendingFrames, hp, List.append_assoc, hq]
  exact StepSending.paged (s := cmdIssue q (fetchSlice s)) hst hw'

/-- R205: Upload's page command. -/
theorem Flashing.programPage (h : Flashing l w₀ s) (hs : s.flashStep = .upload) (hp : s.pg = .loadAddr) :
    Flashing l w₀ (programPage (fetchSlice s)) := by
  refine h.pageCommand (by rw [hs]; rfl) hp _ ?_
  obtain rfl := h.latches
  rw [hs]
  rfl

/-- R206: Verify's page command. -/
theorem Flashing.readPage (h : Flashing l w₀ s) (hs : s.flashStep = .verify) (hp : s.pg = .loadAddr) :
    Flashing l w₀ (readPage (fetchSlice s)) := by
  refine h.pageCommand (by rw [hs]; rfl) hp _ ?_
  obtain rfl := h.latches
  rw [hs]
  rfl

/-- R208: an answered page command completes the iteration, and the cursor moves to the end of its slice. -/
theorem Flashing.advance (h : Flashing l w₀ s) (hst : s.flashStep.isPaged = true) (hp : s.pg = .pageCmd)
    (hpages : PageInvariant s) : Flashing l w₀ (advance s) := by
  obtain ⟨hin, hslice, _, _⟩ := hpages.page_inside hp
  have hnext := hslice ▸ add_currentSlice_length hin
  refine FlashSent.mono (FlashSent.of_eq h rfl rfl rfl rfl) fun w hw => ?_
  obtain rfl := h.latches
  obtain ⟨_, ⟨cs, hcs, rfl⟩, rfl⟩ := hw.pages hst
  have hdone : PagesDone s.params.clipRule s.image.length s.profile.p (cs ++ [s.pageAddr])
      (s.pageAddr + s.slice.length) := by
    rw [hnext]
    exact hcs.page hin
  have hsent : PagesSent s.latches (Machine.advance s) (cs.flatMap (pageFrames s.latches s.flashStep) ++
      pageFrames s.latches s.flashStep s.pageAddr) := ⟨_, hdone, by simp⟩
  have hsending := StepSending.paged (s := Machine.advance s) hst hsent
  rw [pendingFrames, hp]
  rwa [pendingFrames, advance_pg, List.append_nil] at hsending

/-- R208, R210: in the settle delay the flash is between two iterations. -/
theorem Flashing.betweenPages (h : Flashing l w₀ s) (hst : s.flashStep.isPaged = true)
    (hp : s.pg = .settle) : BetweenPages l w₀ s := by
  refine FlashSent.mono h fun w hw => ?_
  obtain ⟨w', hw', rfl⟩ := hw.pages hst
  rwa [pendingFrames, hp, List.append_nil]

/-- R191: a failed step aborts the flash. -/
theorem flashAborted_stepFail (e : Err) (s : State) : FlashAborted (stepFail e s) := ⟨rfl, _, rfl⟩

/-- R183: the result of a command takes the flash on, or aborts it. -/
theorem Flashing.seqOnCmd {r : Reply} {t : State} (h : Flashing l w₀ s) (hs : SessionInvariant s)
    (hpages : PageInvariant s) (hok : seqOnCmd r s = .next t) : FlashAt l w₀ t := by
  have hm := h.mode
  have htimeline := hs.passed hm
  cases r with
  | ok buf =>
    rcases seqOnCmd_ok_cases hok with ⟨hm', _⟩ | ⟨_, hst, _, hok⟩ | ⟨_, hst, hok⟩ | ⟨_, hst, hp, rfl⟩ |
      ⟨_, hst, hp, rfl⟩ | ⟨_, hst, hp, rfl⟩ | ⟨_, hst, hp, _, rfl⟩ | ⟨_, _, _, _, rfl⟩
    · simp [hm] at hm'
    · exact (h.complete hs hst).stepOk htimeline hok
    · have hkept : StepComplete l w₀ (keepSignature buf s) :=
        FlashSent.of_eq (h.complete hs (by rw [hst]; rfl)) rfl rfl rfl rfl
      exact hkept.stepOk htimeline hok
    · exact .running (h.programPage hst hp)
    · exact .running (h.readPage hst hp)
    · exact .running (h.advance (by rw [hst]; rfl) hp hpages)
    · exact .running (h.advance (by rw [hst]; rfl) hp hpages)
    · exact .aborted (flashAborted_stepFail _ s)
  | err e =>
    rcases seqOnCmd_err_cases hok with ⟨hm', _⟩ | ⟨hsync, _, rfl⟩ | ⟨hm', _⟩ | ⟨_, _, _, rfl⟩ |
      ⟨_, _, _, rfl⟩
    · simp [hm] at hm'
    · exact .running (h.retry e (by simpa [hm] using hsync))
    · simp [hm] at hm'
    · exact .aborted (flashAborted_stepFail _ (attemptFailed e s))
    · exact .aborted (flashAborted_stepFail e s)

/-- R209 to R211: a tick of the settle delay takes the flash on. -/
theorem Flashing.settleTick {t : State} (h : Flashing l w₀ s) (hs : SessionInvariant s)
    (hst : s.flashStep.isPaged = true) (hp : s.pg = .settle) (hok : settleTick s = .next t) :
    FlashAt l w₀ t := by
  have hbetween := h.betweenPages hst hp
  have hleft : BetweenPages l w₀ (leavePage (countSettle s)) := FlashSent.of_eq hbetween rfl rfl rfl rfl
  rcases settleTick_cases hok with ⟨_, rfl⟩ | ⟨_, _, rfl⟩ | ⟨_, hend, hok⟩
  · exact .running (h.of_eq rfl rfl rfl rfl rfl)
  · exact .running (hleft.loadAddress hst)
  · exact (hleft.complete hst hend).stepOk (hs.passed h.mode) hok

end

/-! ### Every event of a flash -/

/-- R98, R183: with no operation running, an event that begins none moves the receiver alone. -/
theorem readsOnly_of_exec_idle {i : Instr} {s t : State} (hc : ControlOk s) (hm : s.mode = .idle)
    (hi : isStart i = false) (h : exec i s = .next t) : ReadsOnly s t := by
  rcases exec_cases_of_event hc hi h with ht | ⟨r, u, hu, _, h⟩ | ⟨hp, _⟩
  · exact ht
  · have hidle : u.mode = .idle := hu.mode_eq.trans hm
    simp [seqOnCmd, hidle] at h
  · simp [(hc.of_idle hm).1] at hp

/-- The invariant of a flash: those of every step, and where the flash is. -/
structure FlashInvariant (l : Latches) (w₀ : List Bytes) (s : State) : Prop where
  quiescent : Quiescent s
  session : SessionInvariant s
  pages : PageInvariant s
  position : FlashAt l w₀ s

/-- R195: an event that begins no operation takes the flash on, and changes nothing of one that has ended. -/
theorem FlashInvariant.flashAt_of_exec {l : Latches} {w₀ : List Bytes} {i : Instr} {s t : State}
    (hinv : FlashInvariant l w₀ s) (hi : isStart i = false) (h : exec i s = .next t) :
    FlashAt l w₀ t := by
  obtain ⟨hq, hs, hpages, hpos⟩ := hinv
  cases hpos with
  | running hf =>
    rcases exec_cases_of_event hq.control hi h with ht | ⟨r, u, hu, _, h⟩ | ⟨hp, h⟩
    · exact .running (hf.of_readsOnly ht)
    · exact (hf.of_readsOnly hu).seqOnCmd (hs.of_transportOnly hu.toTransportOnly)
        (hpages.of_eq hu.pages) h
    · exact hf.settleTick hs (hq.control.of_settle hp).2.1 hp h
  | passed hf =>
    have ht := readsOnly_of_exec_idle hq.control hf.mode hi h
    exact .passed ⟨ht.mode_eq.trans hf.mode, (congrArg Session.timeline ht.session).trans hf.timeline,
      ht.writes_eq ▸ hf.frames⟩
  | aborted hf =>
    have ht := readsOnly_of_exec_idle hq.control hf.mode hi h
    exact .aborted ⟨ht.mode_eq.trans hf.mode, by
      obtain ⟨e, he⟩ := hf.result
      exact ⟨e, (congrArg Session.result ht.session).trans he⟩⟩

/-- R195: an event that begins no operation keeps the invariant of a flash. -/
theorem FlashInvariant.exec {l : Latches} {w₀ : List Bytes} {i : Instr} {s t : State}
    (hinv : FlashInvariant l w₀ s) (hi : isStart i = false) (h : exec i s = .next t) :
    FlashInvariant l w₀ t where
  quiescent := quiescent_of_exec hinv.quiescent h
  session := sessionInvariant_of_exec hinv.quiescent.control hinv.session h
  pages := pageInvariant_of_exec hinv.pages h
  position := hinv.flashAt_of_exec hi h

/-- R195: a run of events that begin no operation keeps the invariant of a flash. -/
theorem FlashInvariant.run {l : Latches} {w₀ : List Bytes} {es : List Instr} {s t : State}
    (hinv : FlashInvariant l w₀ s) (hes : ∀ e ∈ es, isStart e = false) (h : run es s = .next t) :
    FlashInvariant l w₀ t := by
  induction es generalizing s with
  | nil => cases h; exact hinv
  | cons e es ih =>
    rw [Machine.run] at h
    cases he : Machine.exec e s with
    | next u =>
      rw [he] at h
      exact ih (hinv.exec (hes e (by simp)) he) (fun x hx => hes x (by simp [hx])) h
    | fault r | refused r => rw [he] at h; cases h

/-- R180: the latches of a flash. -/
def flashLatches (img : Bytes) (prof : Profile) (opts : Options) (s : State) : Latches :=
  ⟨s.params, s.inq, img, prof, opts.attempts, opts.timeout, opts.debug⟩

/-- R180, R184: START_FLASH establishes the invariant. -/
theorem flashInvariant_of_startFlash {img : Bytes} {prof : Profile} {opts : Options} {s t : State}
    (hq : Quiescent s) (h : exec (.startFlash img prof opts) s = .next t) :
    FlashInvariant (flashLatches img prof opts s) (writes s.outs) t := by
  have hentered : StepEntered (flashLatches img prof opts s) (writes s.outs)
      (enterStep .sync1 (openSession img prof opts s)) :=
    ⟨by simp [State.latches, flashLatches], by simp, writes s.outs, [],
      ⟨[], by simp [FlashStep.before], by simp⟩, rfl, by simp⟩
  have hquiet := quiescent_of_exec hq h
  obtain ⟨hm, _, rfl⟩ := execStartFlash_cases h
  exact
    { quiescent := hquiet
      session := sessionInvariant_of_exec_startFlash h
      pages := pageInvariant_of_exec (pageInvariant_of_pg_none (hq.control.of_idle hm).1) h
      position := .running (hentered.sync (by simp [FlashStep.isSync])) }

/-- R195: the frames of all nine steps. -/
theorem Flashed.writes_eq {l : Latches} {w₀ : List Bytes} {s : State} (h : Flashed l w₀ s) :
    ∃ (a1 a2 a3 : Nat) (cursors : List Nat),
      (1 ≤ a1 ∧ a1 ≤ max l.attempts 1) ∧ (1 ≤ a2 ∧ a2 ≤ max l.attempts 1) ∧
      (1 ≤ a3 ∧ a3 ≤ max l.attempts 1) ∧
      IsPageRun l.params.clipRule l.image.length l.profile.p 0 cursors ∧
      writes s.outs = w₀ ++ List.replicate (a1 + a2 + a3) (commandFrame l .sync1) ++
        [commandFrame l .signature, commandFrame l .setOptions, commandFrame l .enterProgmode] ++
        cursors.flatMap (pageFrames l .upload) ++ cursors.flatMap (pageFrames l .verify) ++
        [commandFrame l .exitProgmode] := by
  obtain ⟨_, w9, ⟨ws, hws, rfl⟩, h9, heq⟩ := h.frames
  simp only [FlashStep.before, List.forall₂_cons_left_iff, List.forall₂_nil_left_iff] at hws
  obtain ⟨w1, _, h1, ⟨w2, _, h2, ⟨w3, _, h3, ⟨w4, _, h4, ⟨w5, _, h5, ⟨w6, _, h6, ⟨w7, _, h7, ⟨w8, _, h8,
    rfl, rfl⟩, rfl⟩, rfl⟩, rfl⟩, rfl⟩, rfl⟩, rfl⟩, rfl⟩ := hws
  obtain ⟨a1, ha1, rfl⟩ := h1.syncs rfl
  obtain ⟨a2, ha2, rfl⟩ := h2.syncs rfl
  obtain ⟨a3, ha3, rfl⟩ := h3.syncs rfl
  obtain rfl := h4.command rfl rfl
  obtain rfl := h5.command rfl rfl
  obtain rfl := h6.command rfl rfl
  obtain ⟨cs, hcs, rfl⟩ := h7.pages rfl
  obtain ⟨cs', hcs', rfl⟩ := h8.pages rfl
  obtain rfl := h9.command rfl rfl
  obtain rfl := hcs.unique hcs'
  refine ⟨a1, a2, a3, cs, ha1, ha2, ha3, hcs, ?_⟩
  rw [heq, List.replicate_add, List.replicate_add]
  simp [commandFrame, -List.replicate_append_replicate]

/-- Settles O60: a flash whose result is `true` neither runs any more nor was aborted, so its nine steps
passed. -/
theorem successfulFlashFrames : Obligations.SuccessfulFlashFrames := by
  intro s t img prof opts es hq _ hes hrun hresult
  rw [run] at hrun
  cases hstart : exec (.startFlash img prof opts) s with
  | fault r | refused r => rw [hstart] at hrun; cases hrun
  | next u =>
    rw [hstart] at hrun
    have hinv := (flashInvariant_of_startFlash hq hstart).run hes hrun
    cases hinv.position with
    | running hf =>
      have hnone := hinv.session.no_result (by simp [hf.mode])
      simp [hnone] at hresult
    | aborted hf =>
      obtain ⟨e, he⟩ := hf.result
      simp [he] at hresult
    | passed hf =>
      obtain ⟨a1, a2, a3, cursors, ha1, ha2, ha3, hrun, hwrites⟩ := hf.writes_eq
      exact ⟨a1, a2, a3, cursors, ha1, ha2, ha3, hrun, hwrites, hf.timeline⟩

end Sys2Proof.Machine
end

section
/-!
SUPPORT and PROOFS. The paged transfer (spec/44_paged_transfer.md), transition by transition. The settle delay
counts its ticks and then asks the loop test (R209, R210); the loop test begins the next page or ends the step
(R201, R211); and the answer to a page command is checked by Verify alone (R203, R207).
-/

namespace Sys2Proof.Machine

/-! ### The loop test (R201, R211) -/

/-- R201, R202: inside the image the next iteration begins. -/
theorem pageNext_inside {s : State} (pageDone : State → Res) (h : s.pageAddr < s.image.length) :
    pageNext pageDone s = .next (loadAddress s) :=
  if_neg h.not_ge

/-- R201: at the end of the image the loop ends. -/
theorem pageNext_end {s : State} (pageDone : State → Res) (h : s.image.length ≤ s.pageAddr) :
    pageNext pageDone s = pageDone (leavePage s) :=
  if_pos h

/-- R200, R201: from the entry of a page loop over an empty image to its end. -/
def pagesSkipped (s : State) : State := leavePage (rewindCursor s)

/-- R200, R201: the page loop of an empty image ends at once. -/
theorem pageBegin_empty {s : State} (pageDone : State → Res) (h : s.image = []) :
    pageBegin pageDone s = pageDone (pagesSkipped s) :=
  pageNext_end pageDone (by simp [h])

/-- R202: the first command of an iteration, its word address written as a quotient. -/
theorem loadAddress_eq_div (s : State) : loadAddress s =
    loadAddressIssued (s.pageAddr / 2) { s with wordAddr := s.pageAddr / 2, pg := .loadAddr } := by
  rw [loadAddress_eq, Nat.shiftRight_eq_div_pow]

section
variable {s : State} (htx : s.tx = .idle)
include htx

/-- R192, R200: UPLOAD passed, and the page loop of Verify entered. -/
theorem uploadStepOk_eq : uploadStepOk s = pageBegin verifyStepOk (stepPassed .verify s) := by
  rw [uploadStepOk, beginVerify, enterStep_stepSucceeded_eq _ s htx]

/-- R192, R190: VERIFY passed, and LEAVE_PROGMODE issued. -/
theorem verifyStepOk_eq : verifyStepOk s = .next (issueLeaveProgmode (stepPassed .exitProgmode s)) := by
  rw [verifyStepOk, beginExitProgmode, enterStep_stepSucceeded_eq _ s htx]

/-- R192: UPLOAD passed. -/
theorem stepOk_upload (hs : s.flashStep = .upload) :
    stepOk s = pageBegin verifyStepOk (stepPassed .verify s) := by
  rw [← uploadStepOk_eq htx, stepOk, hs]
  rfl

/-- R192: VERIFY passed. -/
theorem stepOk_verify (hs : s.flashStep = .verify) :
    stepOk s = .next (issueLeaveProgmode (stepPassed .exitProgmode s)) := by
  rw [← verifyStepOk_eq htx, stepOk, hs]
  rfl

end

/-- R201, R192: the end of ENTER_PROGMODE with an empty image: neither Upload nor Verify issues a command. -/
theorem stepOk_enterProgmode_empty {s : State} (htx : s.tx = .idle) (hs : s.flashStep = .enterProgmode)
    (himg : s.image = []) :
    stepOk s = .next (issueLeaveProgmode (stepPassed .exitProgmode (pagesSkipped (stepPassed .verify
      (pagesSkipped (stepPassed .upload s)))))) := by
  rw [stepOk_enterProgmode htx hs, pageBegin_empty (s := stepPassed .upload s) _ himg,
    uploadStepOk_eq (s := pagesSkipped (stepPassed .upload s)) rfl,
    pageBegin_empty (s := stepPassed .verify (pagesSkipped (stepPassed .upload s))) _ himg,
    verifyStepOk_eq (s := pagesSkipped (stepPassed .verify (pagesSkipped (stepPassed .upload s)))) rfl]

/-- Settles O37: both loops end at their first test. -/
theorem emptyImageSkipsPages : Obligations.EmptyImageSkipsPages := by
  intro s buf htx hm hs himg
  rw [seqOnCmd_ok_step buf hm (by simp [hs]) (by simp [hs, FlashStep.isPaged]) (by simp [hs]),
    stepOk_enterProgmode_empty htx hs himg, issueLeaveProgmode_eq]
  refine ⟨_, rfl, rfl, rfl, rfl, ?_, ?_⟩
  · simp [issuedAs, stepPassed, pagesSkipped, leavePage, rewindCursor, hs]
  · simp [issuedAs, stepPassed, pagesSkipped, leavePage, rewindCursor]

/-! ### The loop test after Upload (R201, R211) -/

/-- R211, R192, R202: Upload's loop has ended, and Verify has written its first LOAD_ADDRESS. -/
def verifyEntered (s : State) : State := loadAddress (rewindCursor (stepPassed .verify (leavePage s)))

/-- R201, R211: at the end of an image that is not empty, Upload is followed by the first page of Verify. -/
theorem pageNext_upload_end {s : State} (htx : s.tx = .idle) (hs : s.flashStep = .upload)
    (himg : 0 < s.image.length) (h : s.image.length ≤ s.pageAddr) :
    pageNext stepOk s = .next (verifyEntered s) := by
  rw [pageNext_end _ h, stepOk_upload (s := leavePage s) htx hs, pageBegin,
    pageNext_inside (s := rewindCursor (stepPassed .verify (leavePage s))) _ himg, verifyEntered]

/-! ### The settle delay (R209, R210) -/

/-- R209: a TICK in the settle delay is one of the delay's. -/
theorem exec_tick_settle {s : State} (h : s.pg = .settle) : exec .tick s = settleTick s := by
  rw [exec, execTick, whenEnabled_of_enabled rfl, if_pos h]

/-- R209: the first three TICKs only count. -/
theorem exec_tick_settle_counts {s : State} (h : s.pg = .settle) (hlt : s.settle < 3) :
    exec .tick s = .next (countSettle s) := by
  rw [exec_tick_settle h, settleTick, if_neg (by simp [Config.settleTicks]; omega)]

/-- R209, R210: the fourth TICK asks the loop test. -/
theorem exec_tick_settle_done {s : State} (h : s.pg = .settle) (hlast : s.settle = 3) :
    exec .tick s = pageNext stepOk (leavePage (countSettle s)) := by
  rw [exec_tick_settle h, settleTick, if_pos (by simp [Config.settleTicks, hlast]), settleDone]

/-- A run goes on from where its first instruction ends. -/
theorem run_cons_of_next {i : Instr} {is : List Instr} {s t : State} (h : exec i s = .next t) :
    run (i :: is) s = run is t :=
  run_append_of_next (es := [i]) ((run_singleton i s).trans h)

/-- R209, R210: four TICKs from the start of the settle delay. -/
theorem run_settle_delay {s : State} (h : s.pg = .settle) (h0 : s.settle = 0) :
    run [.tick, .tick, .tick, .tick] s = pageNext stepOk { s with pg := .none, settle := 4 } := by
  have h1 := exec_tick_settle_counts h (by omega)
  have h2 := exec_tick_settle_counts (s := countSettle s) h (by simp [countSettle, h0])
  have h3 := exec_tick_settle_counts (s := countSettle (countSettle s)) h (by simp [countSettle, h0])
  have h4 := exec_tick_settle_done (s := countSettle (countSettle (countSettle s))) h
    (by simp [countSettle, h0])
  rw [run_cons_of_next h1, run_cons_of_next h2, run_cons_of_next h3, run_singleton, h4]
  simp [leavePage, countSettle, h0]

/-- Settles O41: the fourth TICK finds the cursor inside the image. -/
theorem settleDelayThenNextPage : Obligations.SettleDelayThenNextPage := by
  intro s hp
  refine ⟨exec_tick_settle_counts hp, fun hlast hl => ?_⟩
  rw [exec_tick_settle_done hp hlast, pageNext_inside (s := leavePage (countSettle s)) _ hl,
    loadAddress_eq_div]
  simp [leavePage, countSettle, hlast]

/-- Settles O42: the fourth TICK finds the cursor at the end of the image, and the step has passed. -/
theorem settleDelayThenLoopEnd : Obligations.SettleDelayThenLoopEnd := by
  intro s hp htx hlast hl
  rw [exec_tick_settle_done hp hlast]
  refine ⟨fun hs himg => ?_, fun hs => ?_⟩
  · rw [pageNext_upload_end (s := leavePage (countSettle s)) htx hs himg hl, verifyEntered,
      loadAddress_eq_div]
    simp [stepPassed, leavePage, countSettle, rewindCursor, hlast]
  · rw [pageNext_end (s := leavePage (countSettle s)) _ hl,
      stepOk_verify (s := leavePage (leavePage (countSettle s))) htx hs, issueLeaveProgmode_eq]
    simp [stepPassed, leavePage, countSettle, hlast]

/-! ### The answer to a page command (R203, R207, R208, R212) -/

/-- R203: the answer to a page command goes to the rule of PG_PAGECMD. -/
theorem seqOnCmd_ok_pageCmd {s : State} (buf : Bytes) (hm : s.mode = .flash) (hp : s.pg = .pageCmd)
    (hs : s.flashStep = .upload ∨ s.flashStep = .verify) :
    seqOnCmd (.ok buf) s = pageTransferred buf s := by
  rcases hs with hs | hs <;> simp [seqOnCmd, hm, hs, pageOnCmd, hp]

/-- R203, R208: Upload does not look at the response. -/
theorem pageTransferred_upload {s : State} (buf : Bytes) (hs : s.flashStep = .upload) :
    pageTransferred buf s = .next (advance s) :=
  if_neg (by simp [hs])

/-- R203, R208: Verify goes on after a response that passes the check. -/
theorem pageTransferred_verified {s : State} {buf : Bytes} (h : verifyOk s.params buf s.slice = true) :
    pageTransferred buf s = .next (advance s) :=
  if_neg (by simp [h])

/-- R203, R212: Verify fails at a response that does not pass the check. -/
theorem pageTransferred_differs {s : State} {buf : Bytes} (hs : s.flashStep = .verify)
    (h : verifyOk s.params buf s.slice = false) :
    pageTransferred buf s =
      .next (stepFail (.mismatch s.frame (verifyExpected s.params.k s.slice) buf) s) :=
  if_pos ⟨hs, h⟩

/-- Settles O39: by the step, and in Verify by the check. -/
theorem transferredPageAdvancesOrFails : Obligations.TransferredPageAdvancesOrFails := by
  intro s buf htx hm hp
  refine ⟨fun hs => ?_, fun hs hok => ?_, fun hs hbad => ?_⟩
  · rw [seqOnCmd_ok_pageCmd buf hm hp (.inl hs), pageTransferred_upload buf hs, advance]
  · rw [seqOnCmd_ok_pageCmd buf hm hp (.inr hs), pageTransferred_verified hok, advance]
  · rw [seqOnCmd_ok_pageCmd buf hm hp (.inr hs), pageTransferred_differs hs hbad, stepFail_eq _ s htx]
    rfl

/-- R207: a response that passes the check is as long as the slice and the two markers. -/
theorem length_of_verifyOk {p : Params} {buf d : Bytes} (h : verifyOk p buf d = true) :
    buf.length = d.length + 2 := by
  simp only [verifyOk, Bool.and_eq_true, decide_eq_true_eq] at h
  obtain ⟨⟨hlen, _⟩, _⟩ := h
  exact hlen

/-- R207, R215: the check of a response of the right length looks at its middle, and under
VERIFY_TRAILER_CHECK at its last byte. -/
theorem verifyOk_framed {d mid : Bytes} (p : Params) (a z : Byte) (h : mid.length = d.length) :
    verifyOk p ([a] ++ mid ++ [z]) d = true ↔ mid = d ∧ (p.verifyTrailerCheck = true → z = p.k.ok1) := by
  have hmid : (([a] ++ mid ++ [z]).drop 1).take d.length = mid := by simp [← h]
  have hlast : ([a] ++ mid ++ [z])[d.length + 1]? = some z := by simp [← h]
  rw [verifyOk, hmid, hlast]
  cases p.verifyTrailerCheck <;> simp [h]

/-- Settles O40: the framed responses, and those of another length. -/
theorem verifyChecksMiddleBytes : Obligations.VerifyChecksMiddleBytes := by
  intro p d mid a z
  refine ⟨verifyOk_framed p a z, fun buf hlen => ?_⟩
  exact Bool.eq_false_iff.mpr fun hok => hlen (length_of_verifyOk hok)

end Sys2Proof.Machine
end

section
/-!
SUPPORT and PROOFS. The loops of spec/44_paged_transfer.md under the two clipping rules (R204, R213, R214).
First the cursors alone, as iterates of `clipEnd`. Then the Upload loop of the machine: one undisturbed iteration
sends the slice of its cursor and comes to the loop test at the slice's end, so `n` iterations that stay inside the
image follow the iterates and write their frames, under either rule.
-/

namespace Sys2Proof.Machine

/-! ### The cursors under `fixed` (R214, R216) -/

/-- R214: after `k` iterations `fixed` has come `k` pages far, or to the end. -/
theorem iterate_clipEnd_fixed (l p k : Nat) : (clipEnd .fixed l p)^[k] 0 = min (k * p) l := by
  induction k with
  | zero => simp
  | succ k ih =>
    rw [Function.iterate_succ_apply', ih, Nat.succ_mul, clipEnd]
    omega

/-- R216: `k` pages are short of the image exactly below `ceil(L / P)`. -/
theorem lt_pageCount_iff {l p k : Nat} (hp : 1 ≤ p) : k < (l + p - 1) / p ↔ k * p < l := by
  rw [← Nat.succ_le_iff, Nat.le_div_iff_mul_le hp, Nat.succ_mul]
  omega

/-- Settles O44: the loop has ended where `k` pages are not short of the image. -/
theorem fixedClippingCursors : Obligations.FixedClippingCursors := by
  intro l p k hp
  exact ⟨fun _ => iterate_clipEnd_fixed l p k, by rw [lt_pageCount_iff hp]; omega⟩

/-! ### The cursors under `literal` (R213) -/

section
variable {l p : Nat} (hp : 1 ≤ p) (hl : l % p ≠ 0)

include hl in
/-- R213: every cursor of `literal` is inside an image whose last page is short. -/
theorem literalCursor_lt (i : Nat) : literalCursor l p i < l := by
  have hdiv := Nat.div_add_mod' l p
  have hpos : 0 < l % p := Nat.pos_of_ne_zero hl
  rw [literalCursor]
  split
  · have := Nat.mul_le_mul_right p ‹i ≤ l / p›
    omega
  · omega

include hp hl in
/-- R204, R213: `literal` goes from full page to full page, then to the last byte, and stays there. -/
theorem clipEnd_literalCursor (i : Nat) :
    clipEnd .literal l p (literalCursor l p i) = literalCursor l p (i + 1) := by
  have hdiv := Nat.div_add_mod' l p
  have hmod : l % p < p := Nat.mod_lt l hp
  rcases Nat.lt_trichotomy i (l / p) with hi | rfl | hi
  · have hpage : i * p + p ≤ l / p * p := Nat.succ_mul i p ▸ Nat.mul_le_mul_right p hi
    rw [literalCursor, literalCursor, if_pos hi.le, if_pos (Nat.succ_le_of_lt hi), clipEnd, Nat.succ_mul]
    exact if_neg (by omega)
  · rw [literalCursor, literalCursor, if_pos le_rfl, if_neg (by omega), clipEnd]
    exact if_pos (by omega)
  · rw [literalCursor, literalCursor, if_neg (by omega), if_neg (by omega), clipEnd]
    exact if_pos (by omega)

include hp hl in
/-- R213: the cursor of each iteration under `literal`. -/
theorem iterate_clipEnd_literal (i : Nat) : (clipEnd .literal l p)^[i] 0 = literalCursor l p i := by
  induction i with
  | zero => simp [literalCursor]
  | succ i ih => rw [Function.iterate_succ_apply', ih, clipEnd_literalCursor hp hl]

/-- R213: behind the last full page and the short one the cursor is the last byte's address. -/
theorem literalCursor_of_lt {i : Nat} (hi : l / p < i) : literalCursor l p i = l - 1 :=
  if_neg hi.not_ge

end

/-- Settles O45: the iterates are `literalCursor`. -/
theorem literalClippingNeverEnds : Obligations.LiteralClippingNeverEnds := by
  intro l p hp hl
  have hstay := clipEnd_literalCursor hp hl (l / p + 1)
  rw [literalCursor_of_lt (by omega), literalCursor_of_lt (by omega)] at hstay
  refine ⟨fun k => ?_, fun k hk => ?_, hstay⟩
  · rw [iterate_clipEnd_literal hp hl]
    exact literalCursor_lt hl k
  · rw [iterate_clipEnd_literal hp hl, literalCursor_of_lt hk]

/-! ### An acknowledged command (R143, R84, R147) -/

/-- R143, R84, R147: the command in flight was written and answered with the OK acknowledgment. -/
def okReceived (s : State) : State :=
  { s with
    tx := .idle, rxActive := false, rxPend := false, rxSynced := true, rxBuf := s.params.k.okBytes
    rxExp := 2, rxTo := s.req.timeout, rxEl := 0, outs := s.outs ++ [.readReq] }

/-- R84, R145: a command that expects the OK acknowledgment and gets it succeeds. -/
theorem run_acknowledged {s : State} (hk : s.params.k.wf = true) (htx : s.tx = .writing)
    (hlen : s.req.expLen = none) (hexp : s.req.expBytes = some s.params.k.okBytes) :
    run [.wackOk, .chunk s.params.k.okBytes] s = seqOnCmd (.ok s.params.k.okBytes) (okReceived s) := by
  have hresp : respLen s.req = 2 := respLen_of_expBytes hlen hexp
  have hsof : s.params.k.ok0 = s.params.k.sof := ((KTable.wf_iff _).mp hk).1
  have hfresh : awaitsFresh (rxStart 2 s.req.timeout s) := ⟨rfl, rfl, rfl, rfl, rfl⟩
  rw [run_cons_of_next (exec_wackOk_eq htx), hresp, run_singleton,
    exec_chunk_response hfresh (by simp [KTable.okBytes, hsof]) rfl,
    replyTo_of_expBytes (s := rxStart 2 s.req.timeout s) hexp, if_pos rfl]
  rfl

/-! ### One iteration of the Upload loop (R202, R203, R205, R208 to R210) -/

/-- R202: Upload has written the LOAD_ADDRESS of an iteration. -/
structure Addressing (s : State) : Prop where
  table : s.params.k.wf = true
  mode : s.mode = .flash
  step : s.flashStep = .upload
  page : s.pg = .loadAddr
  tx : s.tx = .writing
  inFlight : InFlightOk s

/-- R202: the LOAD_ADDRESS written is the one in flight. -/
theorem Addressing.req_eq {s : State} (h : Addressing s) : s.req = loadAddressRequest s.wordAddr s :=
  h.inFlight (by simp [h.tx]) _ (by simp [positionRequest, h.mode, h.step, h.page])

/-- R205: the LOAD_ADDRESS acknowledged and the slice's PROG_PAGE written. -/
def pageProgramming (s : State) : State :=
  { s with
    slice := currentSlice s, pg := .pageCmd, tx := .writing
    req := progPageRequest (currentSlice s) s, frame := progFrame s.params.k (currentSlice s)
    rxActive := false, rxPend := false, rxSynced := true, rxBuf := s.params.k.okBytes
    rxExp := 2, rxTo := s.req.timeout, rxEl := 0
    outs := s.outs ++ [.readReq, .write (progFrame s.params.k (currentSlice s))] }

/-- R208, R210: the PROG_PAGE acknowledged and the settle delay waited out, before the loop test. -/
def pageSettled (s : State) : State :=
  { s with
    slice := currentSlice s, pageAddr := s.pageAddr + (currentSlice s).length
    pg := .none, settle := 4, tx := .idle
    req := progPageRequest (currentSlice s) s, frame := progFrame s.params.k (currentSlice s)
    rxActive := false, rxPend := false, rxSynced := true, rxBuf := s.params.k.okBytes
    rxExp := 2, rxTo := s.timeout, rxEl := 0
    outs := s.outs ++ [.readReq, .write (progFrame s.params.k (currentSlice s)), .readReq] }

/-- R203, R205: what the acknowledged LOAD_ADDRESS issues. -/
theorem progPageIssued_okReceived (s : State) :
    progPageIssued (currentSlice s) (fetchSlice (okReceived s)) = pageProgramming s := by
  simp only [progPageIssued, issuedAs, fetchSlice, okReceived, pageProgramming, List.append_assoc]
  rfl

/-- R208 to R210: the acknowledged PROG_PAGE and the settle delay. -/
theorem advance_okReceived (s : State) :
    { advance (okReceived (pageProgramming s)) with pg := .none, settle := 4 } = pageSettled s := by
  simp only [advance, okReceived, pageProgramming, pageSettled, List.append_assoc]
  rfl

/-- R203, R205: the acknowledged LOAD_ADDRESS of an iteration has its PROG_PAGE written. -/
theorem run_addressed {s : State} (h : Addressing s) :
    run [.wackOk, .chunk s.params.k.okBytes] s = .next (pageProgramming s) := by
  rw [run_acknowledged h.table h.tx (by rw [h.req_eq]; rfl) (by rw [h.req_eq]; rfl),
    seqOnCmd_ok_loadAddr (s := okReceived s) _ h.mode h.page (.inl h.step),
    pageAddressed_upload (s := okReceived s) h.step, ← progPageIssued_okReceived]
  rfl

/-- R208: the acknowledged PROG_PAGE of an iteration starts the settle delay. -/
theorem run_programmed {s : State} (h : Addressing s) :
    run [.wackOk, .chunk s.params.k.okBytes] (pageProgramming s) =
      .next (advance (okReceived (pageProgramming s))) := by
  have hparams : (pageProgramming s).params = s.params := rfl
  rw [← hparams, run_acknowledged (s := pageProgramming s) h.table rfl rfl rfl,
    seqOnCmd_ok_pageCmd (s := okReceived (pageProgramming s)) _ h.mode rfl (.inl h.step),
    pageTransferred_upload (s := okReceived (pageProgramming s)) _ h.step]

/-- R202 to R210: an undisturbed iteration of Upload sends the current slice and comes to the loop test. -/
theorem run_ackIteration {s : State} (h : Addressing s) :
    run (ackIteration s.params.k) s = pageNext stepOk (pageSettled s) := by
  have hsplit : ackIteration s.params.k = [.wackOk, .chunk s.params.k.okBytes] ++
      ([.wackOk, .chunk s.params.k.okBytes] ++ [.tick, .tick, .tick, .tick]) := rfl
  rw [hsplit, run_append_of_next (run_addressed h), run_append_of_next (run_programmed h),
    run_settle_delay rfl rfl, advance_okReceived]

/-- R204, R208: the cursor after an iteration is the clipped end of its slice. -/
theorem pageSettled_pageAddr {s : State} (h : s.pageAddr < s.image.length) :
    (pageSettled s).pageAddr = clipEnd s.params.clipRule s.image.length s.profile.p s.pageAddr :=
  add_currentSlice_length h

/-- R143, R205: what an iteration emits before the loop test. -/
theorem pageSettled_outs (s : State) : (pageSettled s).outs =
    s.outs ++ [.readReq, .write (pageCommandFrame s.latches .upload s.pageAddr), .readReq] := rfl

/-! ### Iterations inside the image (R201) -/

/-- R202: the LOAD_ADDRESS of an iteration. -/
theorem loadAddress_outs (s : State) :
    (loadAddress s).outs = s.outs ++ [.write (loadFrameAt s.params.k s.pageAddr)] := by
  rw [loadAddress_eq_div]
  rfl

/-- R201, R202: after the settle delay of an Upload, the LOAD_ADDRESS of the next iteration. -/
theorem addressing_loadAddress {s : State} (h : Addressing s) :
    Addressing (loadAddress (pageSettled s)) where
  table := h.table
  mode := h.mode
  step := h.step
  page := rfl
  tx := rfl
  inFlight := by
    have hpaged : (pageSettled s).flashStep.isPaged = true := by
      simp [pageSettled, h.step, FlashStep.isPaged]
    exact (commandOk_loadAddress (s := pageSettled s) h.mode hpaged).2

/-- R200, R204: the cursor of a page loop after `i` iterations. -/
def loopCursor (l : Latches) (i : Nat) : Nat :=
  (clipEnd l.params.clipRule l.image.length l.profile.p)^[i] 0

/-- R204: each cursor of a page loop is the clipped end of the slice before it. -/
theorem loopCursor_succ (l : Latches) (i : Nat) :
    loopCursor l (i + 1) = clipEnd l.params.clipRule l.image.length l.profile.p (loopCursor l i) :=
  Function.iterate_succ_apply' _ i 0

/-- R143, R202, R205: what iteration `i` of Upload emits when another iteration follows. -/
def iterationOutputs (l : Latches) (i : Nat) : List Output :=
  [.readReq, .write (pageCommandFrame l .upload (loopCursor l i)), .readReq,
    .write (loadFrameAt l.params.k (loopCursor l (i + 1)))]

/-- From `s`, where Upload has written its first LOAD_ADDRESS, to `t` the loop has made `n` iterations, and it
goes on. -/
structure Uploaded (s : State) (n : Nat) (t : State) : Prop where
  addressing : Addressing t
  latches : t.latches = s.latches
  timeline : t.timeline = s.timeline
  pageAddr : t.pageAddr = loopCursor s.latches n
  outs : t.outs = s.outs ++ (List.range n).flatMap (iterationOutputs s.latches)

section
variable {s t : State} {n : Nat} (h : Uploaded s n t)
include h

/-- R21: the loop does not write IMAGE. -/
theorem Uploaded.image : t.image = s.image := congrArg Latches.image h.latches

/-- R20: the loop does not write the parameters. -/
theorem Uploaded.params : t.params = s.params := congrArg Latches.params h.latches

/-- R204, R208: one more iteration brings the cursor one more slice on. -/
theorem Uploaded.pageSettled_pageAddr (ha : loopCursor s.latches n < s.image.length) :
    (pageSettled t).pageAddr = loopCursor s.latches (n + 1) := by
  have hin : t.pageAddr < t.image.length := by rwa [h.pageAddr, h.image]
  rw [Machine.pageSettled_pageAddr hin, h.pageAddr, loopCursor_succ, ← h.latches]
  rfl

/-- R201: an iteration whose slice ends inside the image is followed by another one. -/
theorem Uploaded.next (ha : loopCursor s.latches n < s.image.length)
    (hb : loopCursor s.latches (n + 1) < s.image.length) :
    run (ackIteration s.params.k) t = .next (loadAddress (pageSettled t)) ∧
      Uploaded s (n + 1) (loadAddress (pageSettled t)) := by
  have hcursor := h.pageSettled_pageAddr ha
  have hin : (pageSettled t).pageAddr < (pageSettled t).image.length := by
    rw [hcursor]
    exact h.image ▸ hb
  refine ⟨?_, addressing_loadAddress h.addressing, h.latches, h.timeline, hcursor, ?_⟩
  · rw [← h.params, run_ackIteration h.addressing, pageNext_inside _ hin]
  · have hparams : (pageSettled t).params = s.latches.params := h.params
    rw [loadAddress_outs, pageSettled_outs, hcursor, hparams, h.latches, h.pageAddr, h.outs,
      List.range_succ, List.flatMap_append]
    simp [iterationOutputs]

end

/-- The iterations of a run, the last one set apart. -/
theorem ackIterations_succ (k : KTable) (n : Nat) :
    ackIterations k (n + 1) = ackIterations k n ++ ackIteration k := by
  induction n with
  | zero => rfl
  | succ n ih => exact (congrArg (ackIteration k ++ ·) ih).trans (List.append_assoc _ _ _).symm

/-- R201 to R210: as long as the cursors stay inside the image, undisturbed iterations of Upload follow one
another. -/
theorem exists_uploaded {s : State} (h : Addressing s) (h0 : s.pageAddr = 0) {n : Nat}
    (hin : ∀ i ≤ n, loopCursor s.latches i < s.image.length) :
    ∃ t, run (ackIterations s.params.k n) s = .next t ∧ Uploaded s n t := by
  induction n with
  | zero => exact ⟨s, rfl, h, rfl, rfl, h0, by simp⟩
  | succ n ih =>
    obtain ⟨t, hrun, ht⟩ := ih fun i hi => hin i (by omega)
    obtain ⟨hnext, ht'⟩ := ht.next (hin n (by omega)) (hin (n + 1) le_rfl)
    exact ⟨_, by rw [ackIterations_succ, run_append_of_next hrun, hnext], ht'⟩

/-- R202, R205: the frames of the iterations: behind the first LOAD_ADDRESS, those of each page, and the
LOAD_ADDRESS of the page to come. -/
theorem writes_iterationOutputs (l : Latches) (n : Nat) :
    [loadFrameAt l.params.k 0] ++ writes ((List.range n).flatMap (iterationOutputs l)) =
      ((List.range n).flatMap fun i => pageFrames l .upload (loopCursor l i)) ++
        [loadFrameAt l.params.k (loopCursor l n)] := by
  induction n with
  | zero => rfl
  | succ n ih =>
    rw [List.range_succ, List.flatMap_append, writes_append, ← List.append_assoc, ih]
    simp [writes, iterationOutputs, pageFrames]

/-- R194: no iteration emits DONE. -/
theorem opDone_not_mem_iterationOutputs (l : Latches) (n : Nat) (r : OpResult) :
    .opDone r ∉ (List.range n).flatMap (iterationOutputs l) := by
  simp [iterationOutputs]

/-! ### Under `fixed` the loop ends (R214) -/

/-- R204: the slice `fixed` reads is what a read of a whole page gives. -/
theorem sliceAt_fixed (img : Bytes) (p a : Nat) : sliceAt .fixed img p a = memRead img a p := by
  rw [sliceAt, memRead, memRead, clipEnd, List.take_eq_take_iff, List.length_drop]
  omega

/-- R192, R202, R250: from the loop test that ends Upload one frame is written. -/
theorem writes_verifyEntered (s : State) :
    writes (verifyEntered s).outs = writes s.outs ++ [loadFrameAt s.params.k 0] := by
  rw [verifyEntered, loadAddress_outs]
  simp [rewindCursor, stepPassed, leavePage]

/-- R211, R192: the iteration whose slice ends at the end of the image is the last; Verify begins. -/
theorem Uploaded.last {s t : State} {n : Nat} (h : Uploaded s n t)
    (ha : loopCursor s.latches n < s.image.length)
    (hend : loopCursor s.latches (n + 1) = s.image.length) :
    run (ackIteration s.params.k) t = .next (verifyEntered (pageSettled t)) ∧
      writes (verifyEntered (pageSettled t)).outs =
        writes s.outs ++ writes ((List.range n).flatMap (iterationOutputs s.latches)) ++
          [pageCommandFrame s.latches .upload (loopCursor s.latches n), loadFrameAt s.params.k 0] := by
  have hcursor := h.pageSettled_pageAddr ha
  have hout : (pageSettled t).image.length ≤ (pageSettled t).pageAddr := by
    rw [hcursor, hend]
    exact (congrArg List.length h.image).le
  have himg : 0 < (pageSettled t).image.length := (congrArg List.length h.image) ▸ Nat.zero_lt_of_lt ha
  have hparams : (pageSettled t).params = s.params := h.params
  constructor
  · rw [← h.params, run_ackIteration h.addressing,
      pageNext_upload_end (s := pageSettled t) rfl h.addressing.step himg hout]
  · rw [writes_verifyEntered, hparams, pageSettled_outs, h.latches, h.pageAddr, h.outs]
    simp [writes]

/-- R214: the cursors of a page loop under `fixed`. -/
theorem loopCursor_fixed {l : Latches} (h : l.params.clipRule = .fixed) (i : Nat) :
    loopCursor l i = min (i * l.profile.p) l.image.length := by
  rw [loopCursor, h, iterate_clipEnd_fixed]

/-- R205, R214: the PROG_PAGE of a cursor under `fixed`. -/
theorem pageCommandFrame_fixed {l : Latches} (h : l.params.clipRule = .fixed) (a : Nat) :
    pageCommandFrame l .upload a = progFrame l.params.k (memRead l.image a l.profile.p) := by
  rw [pageCommandFrame, if_pos rfl, h, sliceAt_fixed]

/-- Settles O46: the cursors of `fixed` are inside the image for all iterations but the last, which ends at
its end. -/
theorem fixedUploadSendsEverySlice : Obligations.FixedUploadSendsEverySlice := by
  intro s hin hk hrule hp hl hm hs hpg htx h0 _
  have hcursor : ∀ i, loopCursor s.latches i = min (i * s.profile.p) s.image.length :=
    loopCursor_fixed hrule
  have hpage : ∀ a, pageCommandFrame s.latches .upload a =
      progFrame s.params.k (memRead s.image a s.profile.p) := pageCommandFrame_fixed hrule
  obtain ⟨m, hcount⟩ : ∃ m, (s.image.length + s.profile.p - 1) / s.profile.p = m + 1 :=
    Nat.exists_eq_succ_of_ne_zero ((lt_pageCount_iff hp).mpr (by omega)).ne'
  have hbefore {i : Nat} (hi : i < m + 1) : i * s.profile.p < s.image.length :=
    (lt_pageCount_iff hp).mp (hcount ▸ hi)
  have hafter : s.image.length ≤ (m + 1) * s.profile.p :=
    not_lt.mp fun hlt => absurd ((lt_pageCount_iff hp).mpr hlt) (by omega)
  have hat {i : Nat} (hi : i < m + 1) : loopCursor s.latches i = i * s.profile.p :=
    (hcursor i).trans (min_eq_left (hbefore hi).le)
  have hinside {i : Nat} (hi : i < m + 1) : loopCursor s.latches i < s.image.length := hat hi ▸ hbefore hi
  obtain ⟨t, hrun, ht⟩ := exists_uploaded ⟨hk, hm, hs, hpg, htx, hin⟩ h0 (n := m) fun i hi =>
    hinside (Nat.lt_succ_of_le hi)
  obtain ⟨hlast, hwrites⟩ :=
    ht.last (hinside (Nat.lt_succ_self m)) ((hcursor _).trans (min_eq_right hafter))
  rw [hcount]
  refine ⟨_, by rw [ackIterations_succ, run_append_of_next hrun, hlast], rfl, rfl, rfl, ?_, ?_⟩
  · rw [← ht.timeline, ← ht.addressing.step]
    rfl
  · have hsent : [loadFrameAt s.params.k 0] ++ _ = _ := writes_iterationOutputs s.latches m
    have hpages : ((List.range (m + 1)).flatMap fun i =>
          pageFrames s.latches .upload (loopCursor s.latches i)) =
        (List.range (m + 1)).flatMap fun i => [loadFrameAt s.params.k (i * s.profile.p),
          progFrame s.params.k (memRead s.image (i * s.profile.p) s.profile.p)] :=
      List.flatMap_congr fun i hi => by
        rw [pageFrames, hpage, hat (List.mem_range.mp hi)]
        rfl
    rw [hwrites, List.append_assoc, List.drop_left, ← List.append_assoc, hsent, ← hpages, List.range_succ,
      List.flatMap_append]
    simp [pageFrames, State.latches]

/-! ### Under `literal` the loop goes on (R213, R275) -/

/-- R205: the PROG_PAGE of an empty slice. -/
theorem progFrame_nil (k : KTable) : progFrame k [] = [k.progPage, 0, 0, k.memtype, k.eop] := rfl

/-- R213: the cursors of a page loop under `literal` over an image whose last page is short. -/
theorem loopCursor_literal {l : Latches} (h : l.params.clipRule = .literal) (hp : 1 ≤ l.profile.p)
    (hl : l.image.length % l.profile.p ≠ 0) (i : Nat) :
    loopCursor l i = literalCursor l.image.length l.profile.p i := by
  rw [loopCursor, h, iterate_clipEnd_literal hp hl]

/-- R205, R213: the PROG_PAGE of iteration `i` under `literal`, whose slice ends at the next cursor. -/
theorem pageCommandFrame_literal {l : Latches} (h : l.params.clipRule = .literal) (hp : 1 ≤ l.profile.p)
    (hl : l.image.length % l.profile.p ≠ 0) (i : Nat) :
    pageCommandFrame l .upload (literalCursor l.image.length l.profile.p i) =
      progFrame l.params.k (memRead l.image (literalCursor l.image.length l.profile.p i)
        (literalCursor l.image.length l.profile.p (i + 1) - literalCursor l.image.length l.profile.p i)) := by
  rw [pageCommandFrame, if_pos rfl, h, sliceAt, clipEnd_literalCursor hp hl]

/-- Settles O47: the cursors of `literal` never leave the image, so every iteration is followed by another; from
the last byte's address on, the slice is empty. -/
theorem literalUploadNeverEnds : Obligations.LiteralUploadNeverEnds := by
  intro s n hin hk hrule hp hl hm hs hpg htx h0 _
  have hcursor : ∀ i, loopCursor s.latches i = literalCursor s.image.length s.profile.p i :=
    loopCursor_literal hrule hp hl
  have hpage : ∀ i, pageCommandFrame s.latches .upload (literalCursor s.image.length s.profile.p i) =
      progFrame s.params.k (memRead s.image (literalCursor s.image.length s.profile.p i)
        (literalCursor s.image.length s.profile.p (i + 1) -
          literalCursor s.image.length s.profile.p i)) := pageCommandFrame_literal hrule hp hl
  have hinside (i : Nat) : loopCursor s.latches i < s.image.length :=
    hcursor i ▸ literalCursor_lt hl i
  obtain ⟨t, hrun, ht⟩ := exists_uploaded (n := n) ⟨hk, hm, hs, hpg, htx, hin⟩ h0 fun i _ => hinside i
  refine ⟨t, _, hrun, ht.addressing.mode, ht.addressing.step, ht.addressing.page, ht.addressing.tx,
    ht.timeline, ht.pageAddr.trans (hcursor n), ht.outs, opDone_not_mem_iterationOutputs _ n, ?_,
    fun hn => ?_⟩
  · have hsent : [loadFrameAt s.params.k 0] ++ _ = _ := writes_iterationOutputs s.latches n
    simp only [pageFrames, hcursor, hpage] at hsent
    exact hsent
  · obtain ⟨hnext, hu⟩ := ht.next (hinside n) (hinside (n + 1))
    have hlast := literalCursor_of_lt hn
    have hstay := literalCursor_of_lt (Nat.lt_succ_of_lt hn)
    have hempty := hpage n
    rw [hlast, hstay, Nat.sub_self, memRead, List.take_zero, progFrame_nil] at hempty
    refine ⟨_, hnext, hu.pageAddr.trans ((hcursor _).trans hstay), ?_⟩
    rw [hu.outs, ht.outs, List.range_succ, List.flatMap_append, List.append_assoc, List.flatMap_singleton,
      iterationOutputs, hcursor, hcursor, hlast, hstay, hempty]
    rfl

end Sys2Proof.Machine
end

section
/-!
SUPPORT and PROOFS. The error records of spec/60_exceptions.md (R230, R231), and TRACE under DEBUG (R250). A state
is muted by turning DEBUG off and taking TRACE out of its outputs. Every operation of the machine commutes with
that, up to the instruction: the machine branches on neither, and a muted trace is no output. Both halves of the
statement on DEBUG follow from that one fact.
-/

namespace Sys2Proof.Machine

/-! ### Error records (R230, R231) -/

/-- Settles O34: each record has the kind of its constructor, and the codes are those of the table. -/
theorem errorKindsAndCodes : Obligations.ErrorKindsAndCodes :=
  ⟨fun _ _ _ => rfl, fun _ _ => rfl, fun _ _ _ => rfl, fun _ _ _ => rfl, fun _ _ => rfl, fun _ _ => rfl,
    fun _ _ _ => rfl, rfl, rfl, rfl, rfl, rfl, rfl, rfl⟩

/-! ### Muted outputs and states -/

@[simp] theorem untraced_append (a b : List Output) : untraced (a ++ b) = untraced a ++ untraced b :=
  List.filter_append a b

/-- R250: taking TRACE out removes every trace. -/
@[simp] theorem untraced_traceOf (d : Bool) (ev : TraceEvent) : untraced (traceOf d ev) = [] := by
  cases d <;> rfl

/-- R250: no TRACE stays. -/
theorem trace_not_mem_untraced (outs : List Output) (ev : TraceEvent) : .trace ev ∉ untraced outs := by
  simp [untraced]

/-- R250: `s` with DEBUG off, and `pre` before its outputs other than TRACE. -/
def muted (pre : List Output) (s : State) : State :=
  { s with debug := false, outs := pre ++ untraced s.outs }

/-- The outcome with `f` applied to the next state. -/
def onNext (f : State → State) : Res → Res
  | .next s => .next (f s)
  | .fault r => .fault r
  | .refused r => .refused r

@[simp] theorem onNext_next (f : State → State) (s : State) : onNext f (.next s) = .next (f s) := rfl
@[simp] theorem onNext_fault (f : State → State) (r : Fault) : onNext f (.fault r) = .fault r := rfl
@[simp] theorem onNext_refused (f : State → State) (r : Refusal) :
    onNext f (.refused r) = .refused r := rfl

theorem onNext_ite (f : State → State) (c : Prop) [Decidable c] (q r : Res) :
    onNext f (if c then q else r) = if c then onNext f q else onNext f r := apply_ite (onNext f) c q r

/-- A next state of the mapped outcome is the image of one. -/
theorem onNext_eq_next {f : State → State} {r : Res} {t : State} (h : onNext f r = .next t) :
    ∃ u, r = .next u ∧ f u = t := by
  cases r with
  | next u => exact ⟨u, rfl, by cases h; rfl⟩
  | fault | refused => cases h

/-- States that are muted to the same differ only in DEBUG and in TRACE. -/
theorem muted_nil_eq_iff {s t : State} : muted [] t = muted [] s ↔
    untraced t.outs = untraced s.outs ∧ t = { s with debug := t.debug, outs := t.outs } := by
  cases s
  cases t
  simp only [muted, List.nil_append, State.mk.injEq, true_and]
  tauto

section
variable (pre : List Output) (s : State)

/-! ### Operations on a muted state

An operation that writes neither DEBUG nor the outputs commutes with muting by definition. -/

@[simp] theorem muted_params : (muted pre s).params = s.params := rfl
@[simp] theorem muted_profile : (muted pre s).profile = s.profile := rfl
@[simp] theorem muted_mode : (muted pre s).mode = s.mode := rfl
@[simp] theorem muted_flashStep : (muted pre s).flashStep = s.flashStep := rfl
@[simp] theorem muted_pg : (muted pre s).pg = s.pg := rfl
@[simp] theorem muted_syncTry : (muted pre s).syncTry = s.syncTry := rfl
@[simp] theorem muted_slice : (muted pre s).slice = s.slice := rfl
@[simp] theorem muted_frame : (muted pre s).frame = s.frame := rfl
@[simp] theorem muted_rxBuf : (muted pre s).rxBuf = s.rxBuf := rfl
@[simp] theorem muted_rxExp : (muted pre s).rxExp = s.rxExp := rfl
@[simp] theorem muted_rxTo : (muted pre s).rxTo = s.rxTo := rfl
@[simp] theorem muted_rxEl : (muted pre s).rxEl = s.rxEl := rfl
@[simp] theorem muted_rxActive : (muted pre s).rxActive = s.rxActive := rfl
@[simp] theorem syncBudget_muted : syncBudget (muted pre s) = syncBudget s := rfl

@[simp] theorem leavePage_muted : leavePage (muted pre s) = muted pre (leavePage s) := rfl
@[simp] theorem rewindCursor_muted : rewindCursor (muted pre s) = muted pre (rewindCursor s) := rfl
@[simp] theorem advance_muted : advance (muted pre s) = muted pre (advance s) := rfl
@[simp] theorem attemptFailed_muted (e : Err) :
    attemptFailed e (muted pre s) = muted pre (attemptFailed e s) := rfl
@[simp] theorem nextAttempt_muted : nextAttempt (muted pre s) = muted pre (nextAttempt s) := rfl
@[simp] theorem keepSignature_muted (buf : Bytes) :
    keepSignature buf (muted pre s) = muted pre (keepSignature buf s) := rfl
@[simp] theorem fetchSlice_muted : fetchSlice (muted pre s) = muted pre (fetchSlice s) := rfl
@[simp] theorem forgetBuffer_muted : forgetBuffer (muted pre s) = muted pre (forgetBuffer s) := rfl
@[simp] theorem countElapsed_muted : countElapsed (muted pre s) = muted pre (countElapsed s) := rfl

/-- R97: an output other than TRACE stays in a muted state. -/
theorem emit_muted {o : Output} (h : untraced [o] = [o]) :
    emit o (muted pre s) = muted pre (emit o s) := by
  simp [emit, muted, h]

/-- R250: a trace of a muted state is muted. -/
theorem traceEvent_muted (ev : TraceEvent) :
    traceEvent ev (muted pre s) = muted pre (traceEvent ev s) := by
  simp only [traceEvent_eq, muted, untraced_append, untraced_traceOf]
  simp [traceOf]

@[simp] theorem cmdIssue_muted (q : Request) : cmdIssue q (muted pre s) = muted pre (cmdIssue q s) :=
  emit_muted pre { s with req := q, frame := buildFrame s.params.k q, tx := .writing } rfl

@[simp] theorem rxStart_muted (n t : Nat) : rxStart n t (muted pre s) = muted pre (rxStart n t s) :=
  emit_muted pre { s with
    rxActive := true, rxSynced := false, rxBuf := [], rxExp := n, rxTo := t, rxEl := 0,
    tx := .receiving, rxPend := true } rfl

@[simp] theorem continueRead_muted : continueRead (muted pre s) = muted pre (continueRead s) :=
  emit_muted pre { s with rxPend := true } rfl

@[simp] theorem finish_muted (r : OpResult) : finish r (muted pre s) = muted pre (finish r s) :=
  emit_muted pre { s with result := some r, mode := .idle, pg := .none } rfl

@[simp] theorem stepFail_muted (e : Err) : stepFail e (muted pre s) = muted pre (stepFail e s) := by
  have htrace : traceEvent (.stepFailed s.flashStep e.kind) (recordOutcome (.err e.kind) (muted pre s)) =
      muted pre (traceEvent (.stepFailed s.flashStep e.kind) (recordOutcome (.err e.kind) s)) :=
    traceEvent_muted pre (recordOutcome (.err e.kind) s) _
  simp [stepFail, htrace]

@[simp] theorem enterStep_muted (st : FlashStep) :
    enterStep st (muted pre s) = muted pre (enterStep st s) := traceEvent_muted pre (setStep st s) _

@[simp] theorem stepSucceeded_muted : stepSucceeded (muted pre s) = muted pre (stepSucceeded s) :=
  traceEvent_muted pre (recordOutcome .ok s) _

@[simp] theorem issueGetSync_muted : issueGetSync (muted pre s) = muted pre (issueGetSync s) :=
  cmdIssue_muted pre s _

@[simp] theorem issueReadSign_muted : issueReadSign (muted pre s) = muted pre (issueReadSign s) :=
  cmdIssue_muted pre s _

@[simp] theorem issueSetDevice_muted (d : Bytes) :
    issueSetDevice d (muted pre s) = muted pre (issueSetDevice d s) := cmdIssue_muted pre s _

@[simp] theorem issueEnterProgmode_muted :
    issueEnterProgmode (muted pre s) = muted pre (issueEnterProgmode s) := cmdIssue_muted pre s _

@[simp] theorem issueLeaveProgmode_muted :
    issueLeaveProgmode (muted pre s) = muted pre (issueLeaveProgmode s) := cmdIssue_muted pre s _

@[simp] theorem syncBegin_muted : syncBegin (muted pre s) = muted pre (syncBegin s) :=
  issueGetSync_muted pre (firstAttempt s)

@[simp] theorem loadAddress_muted : loadAddress (muted pre s) = muted pre (loadAddress s) :=
  cmdIssue_muted pre (addressPage s) _

@[simp] theorem programPage_muted : programPage (muted pre s) = muted pre (programPage s) :=
  cmdIssue_muted pre s _

@[simp] theorem readPage_muted : readPage (muted pre s) = muted pre (readPage s) :=
  cmdIssue_muted pre s _

/-! ### The sequencer on a muted state -/

/-- R201: the loop test, where the loop's end commutes with muting. -/
theorem pageNext_muted {pageDone : State → Res}
    (hdone : ∀ s, pageDone (muted pre s) = onNext (muted pre) (pageDone s)) :
    pageNext pageDone (muted pre s) = onNext (muted pre) (pageNext pageDone s) := by
  rcases lt_or_ge s.pageAddr s.image.length with h | h
  · rw [pageNext_inside pageDone h, pageNext_inside pageDone (s := muted pre s) h, loadAddress_muted,
      onNext_next]
  · rw [pageNext_end pageDone h, pageNext_end pageDone (s := muted pre s) h, leavePage_muted, hdone]

@[simp] theorem beginExitProgmode_muted :
    beginExitProgmode (muted pre s) = muted pre (beginExitProgmode s) := by
  simp [beginExitProgmode]

@[simp] theorem beginVerify_muted : beginVerify (muted pre s) = onNext (muted pre) (beginVerify s) := by
  simp only [beginVerify, pageBegin, enterStep_muted, rewindCursor_muted]
  exact pageNext_muted pre _ fun s => by simp [verifyStepOk]

@[simp] theorem beginUpload_muted : beginUpload (muted pre s) = onNext (muted pre) (beginUpload s) := by
  simp only [beginUpload, pageBegin, enterStep_muted, rewindCursor_muted]
  exact pageNext_muted pre _ fun s => by simp [uploadStepOk]

/-- R185: the begin of a step. -/
@[simp] theorem beginStep_muted (st : FlashStep) :
    beginStep st (muted pre s) = onNext (muted pre) (beginStep st s) := by
  cases st <;> simp [beginStep]

/-- R192: the end of a step. -/
@[simp] theorem stepOk_muted : stepOk (muted pre s) = onNext (muted pre) (stepOk s) := by
  simp only [stepOk, muted_flashStep, stepSucceeded_muted, beginStep_muted, finish_muted]
  cases s.flashStep <;> rfl

/-- R193: the end of a Sync. -/
theorem syncDone_muted (r : Reply) : syncDone r (muted pre s) = onNext (muted pre) (syncDone r s) := by
  unfold syncDone
  by_cases hm : s.mode = .syncOp <;> cases r <;> simp [hm]

/-- R184: the result of a Sync attempt. -/
@[simp] theorem syncOnResult_muted (r : Reply) :
    syncOnResult r (muted pre s) = onNext (muted pre) (syncOnResult r s) := by
  cases r with
  | ok buf => exact syncDone_muted pre s (.ok buf)
  | err e =>
    by_cases h : s.syncTry < syncBudget s
    · simp [syncOnResult, h]
    · simp [syncOnResult, h, syncDone_muted]

/-- R203: the result of a command of the page loop. -/
@[simp] theorem pageOnCmd_muted (r : Reply) :
    pageOnCmd r (muted pre s) = onNext (muted pre) (pageOnCmd r s) := by
  cases r with
  | err e => simp [pageOnCmd, pageFail]
  | ok buf =>
    cases hp : s.pg with
    | none | settle => simp [pageOnCmd, hp]
    | loadAddr =>
      by_cases hs : s.flashStep = .upload <;> simp [pageOnCmd, hp, pageAddressed, hs]
    | pageCmd =>
      by_cases hv : s.flashStep = .verify ∧ verifyOk s.params buf s.slice = false <;>
        simp [pageOnCmd, hp, pageTransferred, pageFail, hv]

/-- R183: the dispatch of a command's result. -/
theorem seqOnCmd_muted (r : Reply) : seqOnCmd r (muted pre s) = onNext (muted pre) (seqOnCmd r s) := by
  cases hm : s.mode with
  | idle => simp [seqOnCmd, hm]
  | cmdOp => cases r <;> simp [seqOnCmd, hm]
  | syncOp => simp [seqOnCmd, hm]
  | flash =>
    cases hs : s.flashStep with
    | signature => cases r <;> simp [seqOnCmd, hm, hs, onSignature]
    | setOptions | enterProgmode => cases r <;> simp [seqOnCmd, hm, hs, onSimple]
    | exitProgmode => cases r <;> simp [seqOnCmd, hm, hs, onExit]
    | _ => simp [seqOnCmd, hm, hs]

/-- R209 to R211: a tick of the settle delay. -/
theorem settleTick_muted : settleTick (muted pre s) = onNext (muted pre) (settleTick s) := by
  by_cases h : Config.settleTicks ≤ s.settle + 1
  · rw [settleTick, settleTick, if_pos h, if_pos (show _ ≤ (muted pre s).settle + 1 from h)]
    exact pageNext_muted pre (leavePage (countSettle s)) fun s => stepOk_muted pre s
  · rw [settleTick, settleTick, if_neg h, if_neg (show ¬ _ ≤ (muted pre s).settle + 1 from h)]
    rfl

/-! ### The events on a muted state -/

/-- R116: the end of a receive. -/
theorem rxFinish_muted (r : Reply) : rxFinish r (muted pre s) = onNext (muted pre) (rxFinish r s) :=
  seqOnCmd_muted pre (commandOver (receiverOff s)) _

/-- R114: the comparison of the buffer. -/
theorem compareLength_muted : compareLength (muted pre s) = onNext (muted pre) (compareLength s) := by
  simp only [compareLength, muted_rxBuf, muted_rxExp, forgetBuffer_muted, rxFinish_muted, continueRead_muted,
    onNext_ite, onNext_next]

/-- R119, R120: a tick of the receive timer. -/
theorem timeoutTick_muted : timeoutTick (muted pre s) = onNext (muted pre) (timeoutTick s) := by
  have hcancel : emit .readCancel (readOver (muted pre (countElapsed s))) =
      muted pre (emit .readCancel (readOver (countElapsed s))) :=
    emit_muted pre (readOver (countElapsed s)) rfl
  simp only [timeoutTick, muted_rxTo, muted_rxEl, countElapsed_muted, hcancel, rxFinish_muted, onNext_ite,
    onNext_next]

/-- R98, R250: neither DEBUG nor the outputs enable an event. -/
theorem enabled_muted (i : Instr) : enabled i (muted pre s) = enabled i s := by
  cases i <;> rfl

/-- R98, R180: the debug option does not enable an event. -/
theorem whenEnabled_withDebug (d : Bool) (i : Instr) (f : State → Res) :
    whenEnabled (withDebug d i) s f = whenEnabled i s f := by
  cases i <;> rfl

/-- R98: an instruction's meaning, where what it runs commutes with muting. -/
theorem whenEnabled_muted {i : Instr} {f g : State → Res} (hf : f (muted pre s) = onNext (muted pre) (g s)) :
    whenEnabled i (muted pre s) f = onNext (muted pre) (whenEnabled i s g) := by
  simp only [whenEnabled, enabled_muted, hf, onNext_ite, onNext_refused]

/-- R180: the session opens with DEBUG off. -/
theorem beginSession_muted (img : Bytes) (prof : Profile) (opts : Options) :
    beginStep .sync1 (openSession img prof { opts with debug := false } (muted pre s)) =
      onNext (muted pre) (beginStep .sync1 (openSession img prof opts s)) :=
  beginStep_muted pre (openSession img prof opts s) .sync1

/-- R250: an event with its debug option off has of a muted state the muted outcome. -/
theorem exec_muted (i : Instr) :
    exec (withDebug false i) (muted pre s) = onNext (muted pre) (exec i s) := by
  cases i <;> simp only [exec, withDebug]
  case getSync => exact whenEnabled_muted pre s (congrArg _ (issueGetSync_muted pre s))
  case readSign => exact whenEnabled_muted pre s (congrArg _ (issueReadSign_muted pre s))
  case setDevice d =>
    by_cases hd : d.length = Config.devparamCount
    · simp only [execSetDevice, if_pos hd]
      exact whenEnabled_muted pre s (congrArg _ (issueSetDevice_muted pre s d))
    · simp only [execSetDevice, if_neg hd, onNext_refused]
  case enterProgmode => exact whenEnabled_muted pre s (congrArg _ (issueEnterProgmode_muted pre s))
  case leaveProgmode => exact whenEnabled_muted pre s (congrArg _ (issueLeaveProgmode_muted pre s))
  case loadAddress w => exact whenEnabled_muted pre s (congrArg _ (cmdIssue_muted pre s _))
  case progPage d => exact whenEnabled_muted pre s (congrArg _ (cmdIssue_muted pre s _))
  case readPage c => exact whenEnabled_muted pre s (congrArg _ (cmdIssue_muted pre s _))
  case tick =>
    refine whenEnabled_muted pre s ?_
    simp only [muted_pg, muted_rxActive, settleTick_muted, timeoutTick_muted, onNext_ite, onNext_next]
  case chunk c => exact whenEnabled_muted pre s (compareLength_muted pre (acceptChunk c s))
  case eos => exact whenEnabled_muted pre s (rxFinish_muted pre (readOver s) _)
  case readFail x => exact whenEnabled_muted pre s (rxFinish_muted pre (readOver s) _)
  case wackOk => exact whenEnabled_muted pre s (congrArg _ (rxStart_muted pre s _ _))
  case wackFail x => exact whenEnabled_muted pre s (seqOnCmd_muted pre (commandOver s) _)
  case startFlash img prof opts =>
    by_cases hp : prof.wf = true
    · simp only [execStartFlash, if_pos hp]
      refine (whenEnabled_withDebug (muted pre s) false (.startFlash img prof opts) _).trans ?_
      exact whenEnabled_muted pre s (beginSession_muted pre s img prof opts)
    · simp only [execStartFlash, if_neg hp, onNext_refused]
  case startSync a b => exact whenEnabled_muted pre s (congrArg _ (syncBegin_muted pre (openSync a b s)))
  case startCommand q => exact whenEnabled_muted pre s (congrArg _ (cmdIssue_muted pre (openCommand s) q))

end

/-- R250: a run of events with their debug options off has from a muted state the muted outcome. -/
theorem run_muted (pre : List Output) (es : List Instr) (s : State) :
    run (es.map (withDebug false)) (muted pre s) = onNext (muted pre) (run es s) := by
  induction es generalizing s with
  | nil => rfl
  | cons i is ih =>
    simp only [List.map_cons, run, exec_muted]
    cases exec i s with
    | next t => exact ih t
    | fault | refused => rfl

/-! ### DEBUG gates TRACE (R250) -/

/-- R180 to R182: a START event writes DEBUG before anything else. -/
theorem exec_start_debug {i : Instr} (hi : isStart i = true) (d : Bool) (s : State) :
    exec i { s with debug := d } = exec i s := by
  cases i with
  | startFlash | startSync | startCommand => rfl
  | _ => cases hi

/-- R250: an event whose debug option is off, in a state with DEBUG off, appends outputs other than TRACE. -/
theorem outs_of_exec_debug_off {i : Instr} {s t : State} (hd : s.debug = false) (hi : withDebug false i = i)
    (h : exec i s = .next t) : ∃ new, t.outs = s.outs ++ new ∧ ∀ ev, .trace ev ∉ new := by
  have hs : muted s.outs { s with outs := [] } = s := by simp [muted, untraced, ← hd]
  have hmuted := exec_muted s.outs { s with outs := [] } i
  rw [hs, hi, h] at hmuted
  obtain ⟨u, _, rfl⟩ := onNext_eq_next hmuted.symm
  exact ⟨untraced u.outs, rfl, trace_not_mem_untraced u.outs⟩

/-- R250: a step that ends with DEBUG off had its debug option off. -/
theorem withDebug_of_exec {i : Instr} {s t : State} (h : exec i s = .next t) (hd : t.debug = false) :
    withDebug false i = i := by
  cases i with
  | startFlash img prof opts =>
    obtain ⟨_, _, rfl⟩ := execStartFlash_cases h
    have hopts : opts.debug = false := by simpa [syncBegin, issueGetSync] using hd
    simp [withDebug, ← hopts]
  | _ => rfl

/-- R250: a step that ends with DEBUG off emits no TRACE. -/
theorem no_trace_of_debug_off {i : Instr} {s t : State} (h : exec i s = .next t) (hd : t.debug = false) :
    ∃ new, t.outs = s.outs ++ new ∧ ∀ ev, .trace ev ∉ new := by
  have hi := withDebug_of_exec h hd
  cases hstart : isStart i with
  | true =>
    exact outs_of_exec_debug_off (s := { s with debug := false }) rfl hi
      ((exec_start_debug hstart false s).trans h)
  | false =>
    have hkept : t.debug = s.debug := congrArg Latches.debug (latches_of_exec_of_not_start hstart h)
    exact outs_of_exec_debug_off (hkept.symm.trans hd) hi h

/-- Settles O57: both runs, with their debug options off, are from the same muted state and end in the same one. -/
theorem traceDoesNotInfluenceControl : Obligations.TraceDoesNotInfluenceControl := by
  refine ⟨fun s t i h hd => no_trace_of_debug_off h hd, ?_⟩
  intro s t s' es es' hes houts ht hrun
  have hstart : muted [] t = muted [] s := muted_nil_eq_iff.mpr ⟨houts, ht⟩
  have hend : onNext (muted []) (run es' t) = .next (muted [] s') := by
    rw [← run_muted, ← hes, hstart, run_muted, hrun, onNext_next]
  obtain ⟨t', hrun', ht'⟩ := onNext_eq_next hend
  exact ⟨t', hrun', muted_nil_eq_iff.mp ht'⟩

end Sys2Proof.Machine
end

section
/-!
SUPPORT and PROOFS. What reset and the settle delay enable (R260, R270). In a quiescent state every instruction but
TICK needs a command in flight, an outstanding read, or the idle mode; the settle delay has none of them, and reset
has the last alone.
-/

namespace Sys2Proof.Machine

/-! ### Reset (R260) -/

/-- Settles O2: at reset, which is quiescent, the enabled inputs have a step and the others are refused. -/
theorem resetEnablesTickAndStartOnly : Obligations.ResetEnablesTickAndStartOnly := by
  refine ⟨rfl, rfl, fun i hi => ⟨fun hstart => ?_, fun htick hstart => ?_⟩⟩
  · refine enabledInputsHaveAStep State.reset i quiescent_reset hi ?_
    rcases hstart with rfl | hstart
    · rfl
    · cases i with
      | startFlash | startSync | startCommand => rfl
      | _ => cases hstart
  · refine exec_of_not_enabled hi (Bool.eq_false_iff.mpr fun he => ?_)
    rcases tick_or_start_of_enabled quiescent_reset rfl he with ht | hs
    · exact htick ht
    · simp [hstart] at hs

/-! ### The settle delay (R73, R270) -/

/-- R98: an instruction that has a next state is enabled. -/
theorem enabled_of_exec {i : Instr} {s t : State} (h : exec i s = .next t) : enabled i s = true := by
  cases i with
  | setDevice d => exact (execCommand_cases (k := s.params.k) rfl h).1
  | startFlash img prof opts => exact decide_eq_true (execStartFlash_cases h).1
  | _ =>
    unfold exec at h
    exact (whenEnabled_next.mp h).1

/-- R270, R98: in the settle delay only TICK is enabled. -/
theorem eq_tick_of_exec_settle {i : Instr} {s t : State} (hq : Quiescent s) (hp : s.pg = .settle)
    (h : exec i s = .next t) : i = .tick := by
  obtain ⟨hm, _, htx⟩ := hq.control.of_settle hp
  have hpend : s.rxPend = false := (hq.receiverQuiet (by simp [htx])).no_read
  have he := enabled_of_exec h
  cases i with
  | tick => rfl
  | chunk | eos | readFail => simp [enabled, hpend] at he
  | wackOk | wackFail => simp [enabled, htx] at he
  | startFlash | startSync | startCommand => simp [enabled, hm] at he
  | _ => simp [enabled, canIssue, hp] at he

/-- Settles O43: along the events, each of which is a TICK that only counts. -/
theorem settleDelayEmitsNothing : Obligations.SettleDelayEmitsNothing := by
  intro s t es hq hp hlt hrun
  induction es generalizing s with
  | nil =>
    cases hrun
    exact ⟨rfl, hp⟩
  | cons i is ih =>
    cases hi : exec i s with
    | next u =>
      obtain rfl := eq_tick_of_exec_settle hq hp hi
      have hcount : tickCount (.tick :: is) = tickCount is + 1 := List.count_cons_self
      have hu := exec_tick_settle_counts hp (by omega)
      have hqu := quiescent_of_exec hq hu
      have hle : s.settle + 1 + tickCount is < 4 := by omega
      rw [run_cons_of_next hu] at hrun
      exact ih (countSettle s) hqu hp hle hrun
    | fault | refused => simp [run, hi] at hrun

end Sys2Proof.Machine
end

section
/-!
SUPPORT and PROOFS. What an operation outside FLASH leaves of the last flash (R45, R182, R183). There the sequencer
only ends the operation or begins the next Sync attempt, and neither writes a register of the flash session.
-/

namespace Sys2Proof.Machine

/-! ### The registers of the last flash -/

/-- R21, R22, R27 to R29, R41, R42: the registers that the flash alone reads and that outlive it. -/
structure FlashRegisters where
  image    : Bytes
  profile  : Profile
  pageAddr : Nat
  wordAddr : Nat
  slice    : Bytes
  settle   : Nat
  sigResp  : Bytes
  timeline : List (FlashStep × StepOutcome)

/-- The registers of the last flash in a state. -/
def State.flashRegisters (s : State) : FlashRegisters :=
  ⟨s.image, s.profile, s.pageAddr, s.wordAddr, s.slice, s.settle, s.sigResp, s.timeline⟩

/-- From `s` to `t` the registers of the last flash are left alone, and no page phase is entered. -/
def FlashRests (s t : State) : Prop :=
  t.flashRegisters = s.flashRegisters ∧ t.flashStep = s.flashStep ∧ t.pg = .none

/-- R30: outside FLASH no page phase is entered. -/
theorem ControlOk.pg_none {s : State} (h : ControlOk s) (hm : s.mode ≠ .flash) : s.pg = .none := by
  unfold ControlOk at h
  cases hmode : s.mode <;> simp_all [controlListed]

/-- R183, R193: outside FLASH the result of a command ends the operation or is followed by the next attempt. -/
theorem flashRests_of_seqOnCmd {r : Reply} {s t : State} (hm : s.mode ≠ .flash) (hp : s.pg = .none)
    (h : seqOnCmd r s = .next t) : FlashRests s t := by
  cases r with
  | ok buf =>
    rcases seqOnCmd_ok_cases h with ⟨_, rfl⟩ | ⟨hf, _⟩ | ⟨hf, _⟩ | ⟨hf, _⟩ | ⟨hf, _⟩ |
      ⟨hf, _⟩ | ⟨hf, _⟩ | ⟨hf, _⟩
    · exact ⟨rfl, rfl, rfl⟩
    all_goals exact absurd hf hm
  | err e =>
    rcases seqOnCmd_err_cases h with ⟨_, rfl⟩ | ⟨_, _, rfl⟩ | ⟨_, _, rfl⟩ | ⟨hf, _⟩ | ⟨hf, _⟩
    · exact ⟨rfl, rfl, rfl⟩
    · exact ⟨rfl, rfl, hp⟩
    · exact ⟨rfl, rfl, rfl⟩
    all_goals exact absurd hf hm

/-- R116: outside FLASH, the end of a receive. -/
theorem flashRests_of_rxFinish {r : Reply} {s t : State} (hm : s.mode ≠ .flash) (hp : s.pg = .none)
    (h : rxFinish r s = .next t) : FlashRests s t :=
  flashRests_of_seqOnCmd (s := commandOver (receiverOff s)) hm hp h

/-- R45, R183: outside FLASH, an event that begins no operation. -/
theorem flashRests_of_event {i : Instr} {s t : State} (hc : ControlOk s) (hm : s.mode ≠ .flash)
    (hi : isStart i = false) (h : exec i s = .next t) : FlashRests s t := by
  have hp := hc.pg_none hm
  cases i with
  | getSync | readSign | setDevice | enterProgmode | leaveProgmode | loadAddress | progPage | readPage =>
    obtain ⟨_, q, rfl⟩ := execCommand_cases (k := s.params.k) rfl h
    exact ⟨rfl, rfl, hp⟩
  | tick =>
    rcases execTick_cases h with ⟨hsettle, _⟩ | ⟨_, _, _, _, rfl⟩ | ⟨_, _, _, _, h⟩ | ⟨_, _, rfl⟩
    · simp [hp] at hsettle
    · exact ⟨rfl, rfl, hp⟩
    · exact flashRests_of_rxFinish (s := emit .readCancel (readOver (countElapsed s))) hm hp h
    · exact ⟨rfl, rfl, hp⟩
  | chunk c =>
    rcases (execChunk_cases h).2 with ⟨_, h⟩ | ⟨_, h⟩ | ⟨_, rfl⟩
    · exact flashRests_of_rxFinish (s := forgetBuffer (acceptChunk c s)) hm hp h
    · exact flashRests_of_rxFinish (s := acceptChunk c s) hm hp h
    · exact ⟨rfl, rfl, hp⟩
  | eos => exact flashRests_of_rxFinish (s := readOver s) hm hp (execEos_cases h).2
  | readFail x => exact flashRests_of_rxFinish (s := readOver s) hm hp (execReadFail_cases h).2
  | wackOk =>
    obtain ⟨_, rfl⟩ := execWackOk_cases h
    exact ⟨rfl, rfl, hp⟩
  | wackFail x => exact flashRests_of_seqOnCmd (s := commandOver s) hm hp (execWackFail_cases h).2
  | startFlash | startSync | startCommand => cases hi

/-- Settles O54: START_SYNC and START_COMMAND by what they write, the other events because outside FLASH nothing
that they run writes a register of the session. -/
theorem sessionRegistersFrame : Obligations.SessionRegistersFrame := by
  intro s t i hq hm h hflash
  have hp := hq.control.pg_none hm
  cases i with
  | startFlash img prof opts => exact absurd rfl (hflash img prof opts)
  | startSync a b =>
    obtain ⟨_, rfl⟩ := execStartSync_cases h
    exact ⟨rfl, rfl, rfl, rfl, rfl, rfl, hp, nofun, fun _ => rfl⟩
  | startCommand q =>
    obtain ⟨_, rfl⟩ := execStartCommand_cases h
    exact ⟨rfl, rfl, rfl, rfl, rfl, rfl, hp, nofun, fun _ => rfl⟩
  | _ =>
    obtain ⟨hregs, hstep, hpg⟩ := flashRests_of_event hq.control hm rfl h
    simp only [State.flashRegisters, FlashRegisters.mk.injEq] at hregs
    obtain ⟨_, _, haddr, hword, hslice, hsettle, hsig, htimeline⟩ := hregs
    exact ⟨haddr, hword, hslice, hsettle, hsig, htimeline, hpg, fun _ => hstep, nofun⟩

end Sys2Proof.Machine
end

section
/-!
SUPPORT and PROOFS. What ran before does not change a new operation (R261, R262). A state carries a past: the outputs
and the port before it, what the last receive left, and, outside the operation that wrote them, the registers of the
last Sync and of the last flash. An operation runs with another past as it runs without: the sequencer never looks at
the first part, and the second is read only in the mode whose START writes it.
-/

namespace Sys2Proof.Machine

/-! ### The past of a state -/

/-- R23, R26: the registers that Sync reads and that outlive it. -/
structure SyncRegisters where
  attempts : Nat
  timeout  : Nat
  syncTry  : Nat
  syncLast : Option Err

/-- The registers of the last Sync in a state. -/
def State.syncRegisters (s : State) : SyncRegisters := ⟨s.attempts, s.timeout, s.syncTry, s.syncLast⟩

/-- `s` with the outputs `pre` before its own, the port `port`, and the receiver registers of `w` but for RX_ACTIVE
and RX_PEND. -/
def behind (pre : List Output) (port : Bytes) (w : Receiver) (s : State) : State :=
  { s with
    outs := pre ++ s.outs, inq := port
    rxSynced := w.synced, rxBuf := w.buf, rxExp := w.expected, rxTo := w.timeout, rxEl := w.elapsed
    freeCtr := w.freeCtr }

/-- `s` with the Sync registers `y` and the flash registers `f`. -/
def withRegisters (y : SyncRegisters) (f : FlashRegisters) (s : State) : State :=
  { s with
    attempts := y.attempts, timeout := y.timeout, syncTry := y.syncTry, syncLast := y.syncLast
    image := f.image, profile := f.profile, pageAddr := f.pageAddr, wordAddr := f.wordAddr
    slice := f.slice, settle := f.settle, sigResp := f.sigResp, timeline := f.timeline }

/-- Two choices by one condition, the one's outcomes being the other's with `f` applied. -/
theorem ite_eq_onNext {f : State → State} {c : Prop} [Decidable c] {q q' r r' : Res} (hq : q' = onNext f q)
    (hr : r' = onNext f r) : (if c then q' else r') = onNext f (if c then q else r) := by
  rw [onNext_ite, hq, hr]

section
variable (pre : List Output) (port : Bytes) (w : Receiver) (s : State)

/-! ### The sequencer never looks at outputs, port and receiver

An operation that writes none of them commutes with `behind` by definition. -/

@[simp] theorem behind_mode : (behind pre port w s).mode = s.mode := rfl
@[simp] theorem behind_flashStep : (behind pre port w s).flashStep = s.flashStep := rfl
@[simp] theorem behind_pg : (behind pre port w s).pg = s.pg := rfl

/-- R97: an output is appended to those of the past. -/
theorem emit_behind (o : Output) : emit o (behind pre port w s) = behind pre port w (emit o s) := by
  simp [emit, behind]

theorem traceEvent_behind (ev : TraceEvent) :
    traceEvent ev (behind pre port w s) = behind pre port w (traceEvent ev s) := by
  simp [traceEvent_eq, behind]

theorem cmdIssue_behind (q : Request) :
    cmdIssue q (behind pre port w s) = behind pre port w (cmdIssue q s) :=
  emit_behind pre port w { s with req := q, frame := buildFrame s.params.k q, tx := .writing } _

@[simp] theorem finish_behind (r : OpResult) :
    finish r (behind pre port w s) = behind pre port w (finish r s) :=
  emit_behind pre port w { s with result := some r, mode := .idle, pg := .none } _

@[simp] theorem stepFail_behind (e : Err) :
    stepFail e (behind pre port w s) = behind pre port w (stepFail e s) := by
  have htrace := traceEvent_behind pre port w (recordOutcome (.err e.kind) s) (.stepFailed s.flashStep e.kind)
  exact (congrArg (fun u => finish _ (leavePage u)) htrace).trans (finish_behind pre port w (leavePage _) _)

@[simp] theorem enterStep_behind (st : FlashStep) :
    enterStep st (behind pre port w s) = behind pre port w (enterStep st s) :=
  traceEvent_behind pre port w (setStep st s) _

@[simp] theorem stepSucceeded_behind :
    stepSucceeded (behind pre port w s) = behind pre port w (stepSucceeded s) :=
  traceEvent_behind pre port w (recordOutcome .ok s) _

@[simp] theorem syncBegin_behind : syncBegin (behind pre port w s) = behind pre port w (syncBegin s) :=
  cmdIssue_behind pre port w (firstAttempt s) _

/-- R201: the loop test, where the loop's end does not look at the past. -/
theorem pageNext_behind {pageDone : State → Res}
    (hdone : ∀ s, pageDone (behind pre port w s) = onNext (behind pre port w) (pageDone s)) :
    pageNext pageDone (behind pre port w s) = onNext (behind pre port w) (pageNext pageDone s) :=
  ite_eq_onNext (hdone (leavePage s)) (congrArg _ (cmdIssue_behind pre port w (addressPage s) _))

@[simp] theorem beginExitProgmode_behind :
    beginExitProgmode (behind pre port w s) = behind pre port w (beginExitProgmode s) := by
  rw [beginExitProgmode, enterStep_behind]
  exact cmdIssue_behind pre port w (enterStep .exitProgmode s) _

@[simp] theorem beginVerify_behind :
    beginVerify (behind pre port w s) = onNext (behind pre port w) (beginVerify s) := by
  rw [beginVerify, enterStep_behind]
  exact pageNext_behind pre port w (rewindCursor (enterStep .verify s)) fun s => by simp [verifyStepOk]

@[simp] theorem beginUpload_behind :
    beginUpload (behind pre port w s) = onNext (behind pre port w) (beginUpload s) := by
  rw [beginUpload, enterStep_behind]
  exact pageNext_behind pre port w (rewindCursor (enterStep .upload s)) fun s => by simp [uploadStepOk]

/-- R185: the begin of a step. -/
@[simp] theorem beginStep_behind (st : FlashStep) :
    beginStep st (behind pre port w s) = onNext (behind pre port w) (beginStep st s) := by
  have hissue (q : Request) := congrArg (Host.Outcome.next (φ := Fault) (ρ := Refusal))
    (cmdIssue_behind pre port w (enterStep st s) q)
  cases st with
  | signature | setOptions | enterProgmode =>
    simp only [beginStep, enterStep_behind]
    exact hissue _
  | _ => simp [beginStep]

/-- R192: the end of a step. -/
theorem stepOk_behind : stepOk (behind pre port w s) = onNext (behind pre port w) (stepOk s) := by
  simp only [stepOk, behind_flashStep, stepSucceeded_behind, beginStep_behind, finish_behind]
  cases s.flashStep <;> rfl

/-- R193: the end of a Sync. -/
theorem syncDone_behind (r : Reply) :
    syncDone r (behind pre port w s) = onNext (behind pre port w) (syncDone r s) := by
  cases r with
  | ok buf => exact ite_eq_onNext (congrArg _ (finish_behind pre port w s _)) (stepOk_behind pre port w s)
  | err e =>
    exact ite_eq_onNext (congrArg _ (finish_behind pre port w s _))
      (congrArg _ (stepFail_behind pre port w s e))

/-- R184: the result of a Sync attempt. -/
theorem syncOnResult_behind (r : Reply) :
    syncOnResult r (behind pre port w s) = onNext (behind pre port w) (syncOnResult r s) := by
  cases r with
  | ok buf => exact syncDone_behind pre port w s (.ok buf)
  | err e =>
    exact ite_eq_onNext (congrArg _ (cmdIssue_behind pre port w (nextAttempt (attemptFailed e s)) _))
      (syncDone_behind pre port w (attemptFailed e s) _)

/-- R203: the result of a command of the page loop. -/
theorem pageOnCmd_behind (r : Reply) :
    pageOnCmd r (behind pre port w s) = onNext (behind pre port w) (pageOnCmd r s) := by
  cases r with
  | err e => exact congrArg _ (stepFail_behind pre port w s e)
  | ok buf =>
    have hissue (q : Request) := cmdIssue_behind pre port w (fetchSlice s) q
    cases hp : s.pg with
    | none | settle => simp [pageOnCmd, hp]
    | loadAddr =>
      simp only [pageOnCmd, behind_pg, hp, onNext_next, pageAddressed, apply_ite (behind pre port w)]
      exact congrArg _ (if_congr Iff.rfl (hissue _) (hissue _))
    | pageCmd =>
      simp only [pageOnCmd, behind_pg, hp]
      exact ite_eq_onNext (congrArg _ (stepFail_behind pre port w s _)) rfl

/-- R183: the dispatch of a command's result. -/
theorem seqOnCmd_behind (r : Reply) :
    seqOnCmd r (behind pre port w s) = onNext (behind pre port w) (seqOnCmd r s) := by
  cases hm : s.mode with
  | idle => simp [seqOnCmd, hm]
  | cmdOp => cases r <;> simp [seqOnCmd, hm]
  | syncOp => simpa [seqOnCmd, hm] using syncOnResult_behind pre port w s r
  | flash =>
    cases hs : s.flashStep with
    | none => simp [seqOnCmd, hm, hs]
    | sync1 | sync2 | sync3 => simpa [seqOnCmd, hm, hs] using syncOnResult_behind pre port w s r
    | upload | verify => simpa [seqOnCmd, hm, hs] using pageOnCmd_behind pre port w s r
    | signature =>
      simp only [seqOnCmd, behind_mode, behind_flashStep, hm, hs]
      cases r with
      | ok buf => exact stepOk_behind pre port w (keepSignature buf s)
      | err e => exact congrArg _ (stepFail_behind pre port w s e)
    | setOptions | enterProgmode | exitProgmode =>
      simp only [seqOnCmd, behind_mode, behind_flashStep, hm, hs]
      cases r with
      | ok buf => exact stepOk_behind pre port w s
      | err e => exact congrArg _ (stepFail_behind pre port w s e)

/-- R209 to R211: a tick of the settle delay. -/
theorem settleTick_behind :
    settleTick (behind pre port w s) = onNext (behind pre port w) (settleTick s) :=
  ite_eq_onNext (pageNext_behind pre port w (leavePage (countSettle s)) (stepOk_behind pre port w)) rfl

/-! ### The receiver with another past -/

theorem continueRead_behind :
    continueRead (behind pre port w s) = behind pre port w (continueRead s) :=
  emit_behind pre port w { s with rxPend := true } _

/-- R110: a receive that starts overwrites what the last one left. -/
theorem rxStart_behind (n t : Nat) : rxStart n t (behind pre port w s) =
    behind pre port { (rxStart n t s).receiver with freeCtr := w.freeCtr } (rxStart n t s) :=
  emit_behind pre port { (rxStart n t s).receiver with freeCtr := w.freeCtr }
    { s with
      rxActive := true, rxSynced := false, rxBuf := [], rxExp := n, rxTo := t, rxEl := 0,
      tx := .receiving, rxPend := true } _

end

/-! ### A state and one that differs from it by its past -/

/-- The Sync registers `y` and the flash registers `f` are those of `r` where the operation that runs in `r` reads
them, and both are from a START_FLASH on (`flashed`). -/
structure Inherits (flashed : Prop) (y : SyncRegisters) (f : FlashRegisters) (r : State) : Prop where
  sync : flashed ∨ r.mode = .flash ∨ r.mode = .syncOp → y = r.syncRegisters
  flash : flashed ∨ r.mode = .flash → f = r.flashRegisters

/-- R262: the second state is `r` with another past: outputs, port, what a receive left that is over, and the
registers of Sync and flash that the operation in `r` does not read. -/
inductive Follows (flashed : Prop) (pre : List Output) (port : Bytes) (r : State) : State → Prop
  | intro (w : Receiver) (y : SyncRegisters) (f : FlashRegisters)
      (hrx : r.rxActive = true → w = { r.receiver with freeCtr := w.freeCtr }) (h : Inherits flashed y f r) :
      Follows flashed pre port r (behind pre port w (withRegisters y f r))

/-- The outcomes are the same, but that the second next state follows the first. -/
inductive OutcomeFollows (flashed : Prop) (pre : List Output) (port : Bytes) : Res → Res → Prop
  | next {r s : State} (h : Follows flashed pre port r s) : OutcomeFollows flashed pre port (.next r) (.next s)
  | fault (x : Fault) : OutcomeFollows flashed pre port (.fault x) (.fault x)
  | refused (x : Refusal) : OutcomeFollows flashed pre port (.refused x) (.refused x)

/-- Operations that leave the Sync and the flash registers alone, and at most end the operation. -/
theorem Inherits.of_eq {flashed : Prop} {y : SyncRegisters} {f : FlashRegisters} {r u : State}
    (h : Inherits flashed y f u) (hy : r.syncRegisters = u.syncRegisters)
    (hf : r.flashRegisters = u.flashRegisters) (hm : r.mode = .idle ∨ r.mode = u.mode) :
    Inherits flashed y f r := by
  constructor
  · intro hr
    rcases hm with hm | hm <;> rw [hy] <;> apply h.sync <;> simp_all
  · intro hr
    rcases hm with hm | hm <;> rw [hf] <;> apply h.flash <;> simp_all

section
variable {flashed : Prop} {pre : List Output} {port : Bytes}

/-- With no receive running, what the last one left is past. -/
theorem Follows.behind_self {r : State} (w : Receiver) (h : r.rxActive = false) :
    Follows flashed pre port r (behind pre port w r) :=
  .intro w r.syncRegisters r.flashRegisters (by simp [h]) ⟨fun _ => rfl, fun _ => rfl⟩

/-- The registers of the running receive are not past. -/
theorem Inherits.follows_receiving {y : SyncRegisters} {f : FlashRegisters} {r : State}
    (h : Inherits flashed y f r) (n : Nat) :
    Follows flashed pre port r (behind pre port { r.receiver with freeCtr := n } (withRegisters y f r)) :=
  .intro _ y f (fun _ => rfl) h

/-- R115: a receive that goes on. -/
theorem Inherits.follows_continueRead {y : SyncRegisters} {f : FlashRegisters} {r : State}
    (h : Inherits flashed y f r) (n : Nat) :
    Follows flashed pre port (continueRead r)
      (continueRead (behind pre port { r.receiver with freeCtr := n } (withRegisters y f r))) := by
  rw [continueRead_behind]
  have hgoes : Inherits flashed y f (continueRead r) := h.of_eq rfl rfl (.inr rfl)
  exact hgoes.follows_receiving n

/-- R110: a receive that starts. -/
theorem Inherits.follows_rxStart {w : Receiver} {y : SyncRegisters} {f : FlashRegisters} {r : State}
    (h : Inherits flashed y f r) (n t : Nat) :
    Follows flashed pre port (rxStart n t r) (rxStart n t (behind pre port w (withRegisters y f r))) := by
  rw [rxStart_behind]
  have hstarted : Inherits flashed y f (rxStart n t r) := h.of_eq rfl rfl (.inr rfl)
  exact hstarted.follows_receiving w.freeCtr

theorem OutcomeFollows.ite {c : Prop} [Decidable c] {q q' r r' : Res}
    (hq : c → OutcomeFollows flashed pre port q q') (hr : ¬ c → OutcomeFollows flashed pre port r r') :
    OutcomeFollows flashed pre port (if c then q else r) (if c then q' else r') := by
  split
  · exact hq ‹_›
  · exact hr ‹_›

/-- An outcome whose next state only gets the past of the wire. -/
theorem outcomeFollows_onNext {q : Res} (w : Receiver) (h : ∀ r, q = .next r → r.rxActive = false) :
    OutcomeFollows flashed pre port q (onNext (behind pre port w) q) := by
  cases q with
  | next r => exact .next (.behind_self w (h r rfl))
  | fault x => exact .fault x
  | refused x => exact .refused x

variable {w : Receiver} {y : SyncRegisters} {f : FlashRegisters}

/-- R140: a command is issued. -/
theorem Inherits.follows_issue {v : State} (q : Request) (hrx : v.rxActive = false)
    (h : Inherits flashed y f v) :
    Follows flashed pre port (cmdIssue q v) (cmdIssue q (behind pre port w (withRegisters y f v))) := by
  rw [cmdIssue_behind]
  exact .intro w y f (by simp [hrx]) (h.of_eq rfl rfl (.inr rfl))

/-- R194: the end of the operation. -/
theorem outcomeFollows_finish {u : State} (r : OpResult) (hrx : u.rxActive = false)
    (h : Inherits flashed y f u) :
    OutcomeFollows flashed pre port (.next (finish r u))
      (.next (finish r (behind pre port w (withRegisters y f u)))) := by
  rw [finish_behind]
  exact .next (.intro w y f (by simp [hrx]) (h.of_eq rfl rfl (.inl rfl)))

/-- R184, R193: an attempt of a lower-level Sync ends it, or is followed by the next. -/
theorem outcomeFollows_syncOnResult {u : State} (r : Reply) (hm : u.mode = .syncOp) (hrx : u.rxActive = false)
    (h : Inherits flashed u.syncRegisters f u) :
    OutcomeFollows flashed pre port (syncOnResult r u)
      (syncOnResult r (behind pre port w (withRegisters u.syncRegisters f u))) := by
  have hdone (v : State) (r : OpResult) (hv : v.rxActive = false) (hi : Inherits flashed v.syncRegisters f v) :=
    outcomeFollows_finish (pre := pre) (port := port) (w := w) r hv hi
  have hm' : (behind pre port w (withRegisters u.syncRegisters f u)).mode = .syncOp := hm
  cases r with
  | ok buf =>
    rw [syncOnResult, syncOnResult, syncDone, syncDone, if_pos hm, if_pos hm']
    exact hdone u _ hrx h
  | err e =>
    refine .ite (fun _ => ?_) (fun _ => ?_)
    · exact .next (Inherits.follows_issue (v := nextAttempt (attemptFailed e u)) _ hrx ⟨fun _ => rfl, h.flash⟩)
    · rw [syncDone, syncDone, if_pos (by exact hm), if_pos (by exact hm)]
      exact hdone (attemptFailed e u) _ hrx ⟨fun _ => rfl, h.flash⟩

/-- R183: the sequencer reads the Sync and the flash registers only in the modes that inherit none. -/
theorem outcomeFollows_seqOnCmd {u : State} (r : Reply) (hrx : u.rxActive = false)
    (h : Inherits flashed y f u) :
    OutcomeFollows flashed pre port (seqOnCmd r u) (seqOnCmd r (behind pre port w (withRegisters y f u))) := by
  have hfinish (r : OpResult) := outcomeFollows_finish (pre := pre) (port := port) (w := w) r hrx h
  cases hm : u.mode with
  | idle =>
    have hm' : (withRegisters y f u).mode = .idle := hm
    simpa [seqOnCmd, hm, hm'] using .fault _
  | cmdOp =>
    have hm' : (withRegisters y f u).mode = .cmdOp := hm
    cases r <;> simpa only [seqOnCmd, behind_mode, hm, hm'] using hfinish _
  | syncOp =>
    obtain rfl := h.sync (.inr (.inr hm))
    have hm' : (withRegisters u.syncRegisters f u).mode = .syncOp := hm
    simpa only [seqOnCmd, behind_mode, hm, hm'] using outcomeFollows_syncOnResult r hm hrx h
  | flash =>
    obtain rfl := h.sync (.inr (.inl hm))
    obtain rfl := h.flash (.inr hm)
    rw [seqOnCmd_behind]
    exact outcomeFollows_onNext w fun t ht =>
      (congrArg Receiver.active (sequencerKeeps_of_seqOnCmd ht).receiver).trans hrx

/-! ### The events with another past -/

/-- R116: the end of a receive. -/
theorem outcomeFollows_rxFinish {u : State} (r : Reply) (h : Inherits flashed y f u) :
    OutcomeFollows flashed pre port (rxFinish r u) (rxFinish r (behind pre port w (withRegisters y f u))) :=
  outcomeFollows_seqOnCmd (u := commandOver (receiverOff u)) _ rfl (h.of_eq rfl rfl (.inr rfl))

/-- R98: what enables an instruction is not past. -/
theorem enabled_behind (i : Instr) (r : State) :
    enabled i (behind pre port w (withRegisters y f r)) = enabled i r := by
  cases i <;> rfl

/-- R98: an instruction's meaning, where it is enabled. -/
theorem outcomeFollows_whenEnabled {i : Instr} {r : State} {m : State → Res}
    (h : enabled i r = true →
      OutcomeFollows flashed pre port (m r) (m (behind pre port w (withRegisters y f r)))) :
    OutcomeFollows flashed pre port (whenEnabled i r m)
      (whenEnabled i (behind pre port w (withRegisters y f r)) m) := by
  cases he : enabled i r with
  | true =>
    rw [whenEnabled_of_enabled he, whenEnabled_of_enabled ((enabled_behind i r).trans he)]
    exact h he
  | false =>
    rw [whenEnabled_of_not_enabled he, whenEnabled_of_not_enabled ((enabled_behind i r).trans he)]
    exact .refused _

/-- R111: a chunk of the running receive. -/
theorem outcomeFollows_chunk {r : State} (c : Bytes) (n : Nat) (h : Inherits flashed y f r) :
    OutcomeFollows flashed pre port (compareLength (acceptChunk c r)) (compareLength (acceptChunk c
      (behind pre port { r.receiver with freeCtr := n } (withRegisters y f r)))) := by
  have hu : Inherits flashed y f (acceptChunk c r) := h.of_eq rfl rfl (.inr rfl)
  have hgoes := hu.follows_continueRead (pre := pre) (port := port) n
  refine .ite (fun _ => ?_) fun _ => .ite (fun _ => ?_) fun _ => .next hgoes
  · exact outcomeFollows_rxFinish (u := forgetBuffer (acceptChunk c r))
      (w := (forgetBuffer (behind pre port { (acceptChunk c r).receiver with freeCtr := n }
        (withRegisters y f (acceptChunk c r)))).receiver) _ (hu.of_eq rfl rfl (.inr rfl))
  · exact outcomeFollows_rxFinish (w := { (acceptChunk c r).receiver with freeCtr := n }) _ hu

/-- R119, R120: a tick of the running receive. -/
theorem outcomeFollows_timeoutTick {r : State} (n : Nat) (h : Inherits flashed y f r) :
    OutcomeFollows flashed pre port (timeoutTick r)
      (timeoutTick (behind pre port { r.receiver with freeCtr := n } (withRegisters y f r))) := by
  have hu : Inherits flashed y f (countElapsed r) := h.of_eq rfl rfl (.inr rfl)
  refine .ite (fun _ => .next (h.follows_receiving n)) fun _ => .ite (fun _ => ?_) fun _ =>
    .next (hu.follows_receiving n)
  have hcancel := emit_behind pre port { (countElapsed r).receiver with freeCtr := n }
    (withRegisters y f (readOver (countElapsed r))) .readCancel
  have hfinish := outcomeFollows_rxFinish (flashed := flashed) (pre := pre) (port := port)
    (w := { (countElapsed r).receiver with freeCtr := n }) (u := emit .readCancel (readOver (countElapsed r)))
    (.err (.timeout none (r.rxEl + 1))) (hu.of_eq rfl rfl (.inr rfl))
  exact (congrArg (fun v => OutcomeFollows flashed pre port _ (rxFinish _ v)) hcancel).mpr hfinish

/-- R209 to R211: a tick of the settle delay. -/
theorem outcomeFollows_settleTick {r : State} (hrx : r.rxActive = false) :
    OutcomeFollows flashed pre port (settleTick r) (settleTick (behind pre port w r)) := by
  rw [settleTick_behind]
  exact outcomeFollows_onNext w fun t ht =>
    (congrArg Receiver.active (sequencerKeeps_of_settleTick ht).receiver).trans hrx

/-- R140: where no command may be issued, a wire command is refused, whatever the state. -/
theorem exec_command_of_not_canIssue {i : Instr} {k : KTable} (hi : (i.wireParts k).isSome) :
    ∃ x, ∀ s, canIssue s = false → exec i s = .refused x := by
  cases i with
  | setDevice d =>
    by_cases hd : d.length = Config.devparamCount
    · exact ⟨.notEnabled, fun s h => (if_pos hd).trans (whenEnabled_of_not_enabled h)⟩
    · exact ⟨.illFormedInput, fun s _ => if_neg hd⟩
  | getSync | readSign | enterProgmode | leaveProgmode | loadAddress | progPage | readPage =>
    exact ⟨.notEnabled, fun s h => by unfold exec; exact whenEnabled_of_not_enabled h⟩
  | _ => cases hi

/-- R43: no receive runs where no operation does. -/
theorem Quiescent.inactive_of_idle {r : State} (hq : Quiescent r) (hm : r.mode = .idle) : r.rxActive = false :=
  (hq.receiverQuiet (by simp [(hq.control.of_idle hm).2])).inactive

/-- R180, R184: the state in which a new session writes its first GET_SYNC, register by register. -/
theorem beginSession_eq (img : Bytes) (prof : Profile) (opts : Options) (r : State) :
    beginStep .sync1 (openSession img prof opts r) = .next (getSyncIssued { openSession img prof opts r with
      flashStep := .sync1, syncTry := 1, syncLast := none
      outs := r.outs ++ traceOf opts.debug (.stepStarted .sync1) }) := by
  simp only [beginStep, syncBegin_eq, enterStep, traceEvent_eq]
  rfl

/-- R180: START_FLASH writes every register that may be past, but those of the wire. -/
theorem beginSession_withRegisters (img : Bytes) (prof : Profile) (opts : Options) (r : State) :
    beginStep .sync1 (openSession img prof opts (withRegisters y f r)) =
      beginStep .sync1 (openSession img prof opts r) := by
  rw [beginSession_eq, beginSession_eq]
  rfl

/-- R180: a new flash has no past but that of the wire. -/
theorem outcomeFollows_startFlash {r s : State} (img : Bytes) (prof : Profile) (opts : Options)
    (hq : Quiescent r) (h : Follows flashed pre port r s) :
    OutcomeFollows True pre port (exec (.startFlash img prof opts) r) (exec (.startFlash img prof opts) s) := by
  obtain ⟨w, y, f, _, _⟩ := h
  by_cases hp : prof.wf = true
  · simp only [exec, execStartFlash, if_pos hp]
    refine outcomeFollows_whenEnabled fun he => ?_
    have hrx : r.rxActive = false := hq.inactive_of_idle (of_decide_eq_true he)
    have hbegin := beginStep_behind pre port w (openSession img prof opts (withRegisters y f r)) .sync1
    rw [beginSession_withRegisters] at hbegin
    refine (congrArg (OutcomeFollows True pre port _) hbegin).mpr (outcomeFollows_onNext w ?_)
    rintro _ ⟨⟩
    simpa [syncBegin, issueGetSync] using hrx
  · simp only [exec, execStartFlash, if_neg hp]
    exact .refused _

/-- Where the second outcome is a next state, the first is one that it follows. -/
theorem OutcomeFollows.exists_of_next_right {q : Res} {s : State}
    (h : OutcomeFollows flashed pre port q (.next s)) : ∃ r, q = .next r ∧ Follows flashed pre port r s := by
  cases h with
  | next h => exact ⟨_, rfl, h⟩

/-- Where the first outcome is a next state, the second is one that follows it. -/
theorem OutcomeFollows.exists_of_next_left {q : Res} {r : State}
    (h : OutcomeFollows flashed pre port (.next r) q) : ∃ s, q = .next s ∧ Follows flashed pre port r s := by
  cases h with
  | next h => exact ⟨_, rfl, h⟩

/-- A stronger agreement implies a weaker one. -/
theorem OutcomeFollows.mono {flashed' : Prop} {q q' : Res} (h : OutcomeFollows flashed pre port q q')
    (himp : flashed' → flashed) : OutcomeFollows flashed' pre port q q' := by
  cases h with
  | next h =>
    obtain ⟨w, y, f, hrx, hin⟩ := h
    exact .next (.intro w y f hrx ⟨fun h => hin.sync (h.imp_left himp), fun h => hin.flash (h.imp_left himp)⟩)
  | fault x => exact .fault x
  | refused x => exact .refused x

/-- R262: no instruction looks at the past. -/
theorem outcomeFollows_exec {r s : State} (i : Instr) (hq : Quiescent r) (h : Follows flashed pre port r s) :
    OutcomeFollows flashed pre port (exec i r) (exec i s) := by
  have hinactive (htx : r.tx ≠ .receiving) : r.rxActive = false := (hq.receiverQuiet htx).inactive
  have hflash (img : Bytes) (prof : Profile) (opts : Options) := outcomeFollows_startFlash img prof opts hq h
  obtain ⟨w, y, f, hrx, hin⟩ := h
  have hcommand (hi : (i.wireParts r.params.k).isSome) : OutcomeFollows flashed pre port (exec i r)
      (exec i (behind pre port w (withRegisters y f r))) := by
    obtain ⟨x, hx⟩ := exec_command_of_not_canIssue hi
    have hissue := canIssue_of_controlOk hq.control
    rw [hx r hissue, hx (behind pre port w (withRegisters y f r)) hissue]
    exact .refused x
  cases i with
  | getSync | readSign | setDevice | enterProgmode | leaveProgmode | loadAddress | progPage | readPage =>
    exact hcommand rfl
  | tick =>
    simp only [exec, execTick]
    refine outcomeFollows_whenEnabled fun _ => .ite (fun hp => ?_) fun _ => .ite (fun ha => ?_) fun _ => ?_
    · obtain ⟨hm, _, htx⟩ := hq.control.of_settle hp
      obtain rfl := hin.sync (.inr (.inl hm))
      obtain rfl := hin.flash (.inr hm)
      exact outcomeFollows_settleTick (hinactive (by simp [htx]))
    · rw [hrx ha]
      exact outcomeFollows_timeoutTick w.freeCtr hin
    · exact .next (.intro w y f hrx hin)
  | chunk c =>
    simp only [exec, execChunk]
    refine outcomeFollows_whenEnabled fun hpend => ?_
    rw [hrx (hq.pend_active hpend)]
    exact outcomeFollows_chunk c w.freeCtr hin
  | eos =>
    simp only [exec, execEos]
    refine outcomeFollows_whenEnabled fun hpend => ?_
    rw [hrx (hq.pend_active hpend)]
    exact outcomeFollows_rxFinish (u := readOver r) (w := { r.receiver with freeCtr := w.freeCtr }) (eosReply r)
      (hin.of_eq rfl rfl (.inr rfl))
  | readFail x =>
    simp only [exec, execReadFail]
    exact outcomeFollows_whenEnabled fun _ =>
      outcomeFollows_rxFinish (u := readOver r) _ (hin.of_eq rfl rfl (.inr rfl))
  | wackOk =>
    simp only [exec, execWackOk]
    exact outcomeFollows_whenEnabled fun _ => .next (hin.follows_rxStart _ _)
  | wackFail x =>
    simp only [exec, execWackFail]
    refine outcomeFollows_whenEnabled fun he => ?_
    have htx : r.tx = .writing := of_decide_eq_true he
    exact outcomeFollows_seqOnCmd (u := commandOver r) _ (hinactive (by simp [htx]))
      (hin.of_eq rfl rfl (.inr rfl))
  | startFlash img prof opts =>
    exact (hflash img prof opts).mono fun _ => trivial
  | startSync a b =>
    simp only [exec, execStartSync]
    refine outcomeFollows_whenEnabled fun he => .next ?_
    have hrx := hq.inactive_of_idle (of_decide_eq_true he)
    exact Inherits.follows_issue (v := firstAttempt (openSync a b r)) _ hrx
      ⟨fun _ => rfl, fun h => hin.flash (.inl (h.resolve_right nofun))⟩
  | startCommand q =>
    simp only [exec, execStartCommand]
    refine outcomeFollows_whenEnabled fun he => .next ?_
    have hrx := hq.inactive_of_idle (of_decide_eq_true he)
    exact Inherits.follows_issue (v := openCommand r) _ hrx
      ⟨fun h => hin.sync (.inl (h.resolve_right nofun)), fun h => hin.flash (.inl (h.resolve_right nofun))⟩

/-- R262: a run from an instruction on, where the instruction's outcomes follow. -/
theorem outcomeFollows_run_cons {r s : State} {i : Instr} (es : List Instr) (hq : Quiescent r)
    (h : OutcomeFollows flashed pre port (exec i r) (exec i s)) :
    OutcomeFollows flashed pre port (run (i :: es) r) (run (i :: es) s) := by
  induction es generalizing i r s with
  | nil => simpa using h
  | cons j js ih =>
    generalize hr : exec i r = q at h
    generalize hs : exec i s = q' at h
    cases h with
    | next h =>
      have hq' := quiescent_of_exec hq hr
      rw [run_cons_of_next hr, run_cons_of_next hs]
      exact ih hq' (outcomeFollows_exec j hq' h)
    | fault x => simpa [run, hr, hs] using .fault x
    | refused x => simpa [run, hr, hs] using .refused x

end

/-! ### A new operation -/

/-- R48: the state after reset under the parameters `p`. -/
def resetOf (p : Params) : State := { State.reset with params := p }

/-- The state after reset with the registers that a START writes before it reads them taken from `s`. -/
def resetLike (s : State) : State :=
  { resetOf s.params with
    debug := s.debug, flashStep := s.flashStep, req := s.req, frame := s.frame, result := s.result }

/-- R180 to R182: a START event writes these registers before it reads them. -/
theorem exec_start_resetLike {i : Instr} (hi : isStart i = true) (s : State) :
    exec i (resetLike s) = exec i (resetOf s.params) := by
  cases i with
  | startFlash img prof opts =>
    simp only [exec, execStartFlash, whenEnabled, beginSession_eq]
    rfl
  | startSync | startCommand => rfl
  | _ => cases hi

/-- R48: no operation runs after reset. -/
theorem quiescent_resetOf (p : Params) : Quiescent (resetOf p) :=
  ReceiverQuiet.quiescent ⟨rfl, rfl, nofun⟩ ⟨rfl, nofun⟩

/-- R30, R43: the invariants of an idle state do not look at the registers taken from `s`. -/
theorem quiescent_resetLike (s : State) : Quiescent (resetLike s) :=
  ReceiverQuiet.quiescent ⟨rfl, rfl, nofun⟩ ⟨rfl, nofun⟩

/-- R262: a quiescent idle state differs from reset by its past, but for those registers. -/
theorem follows_resetLike {s : State} (hq : Quiescent s) (hm : s.mode = .idle) :
    Follows False s.outs s.inq (resetLike s) s := by
  obtain ⟨hpg, htx⟩ := hq.control.of_idle hm
  obtain ⟨hactive, hpend, _⟩ := hq.receiverQuiet (by simp [htx])
  have hs : behind s.outs s.inq s.receiver
      (withRegisters s.syncRegisters s.flashRegisters (resetLike s)) = s := by
    cases s
    simp_all [behind, withRegisters, resetLike, resetOf, State.reset, State.receiver, State.syncRegisters,
      State.flashRegisters]
  have h : Follows False s.outs s.inq (resetLike s) (behind s.outs s.inq s.receiver
      (withRegisters s.syncRegisters s.flashRegisters (resetLike s))) :=
    .intro _ _ _ nofun ⟨by simp [resetLike, resetOf, State.reset], by simp [resetLike, resetOf, State.reset]⟩
  rwa [hs] at h

/-- R261, R262: a START event of an idle state begins the operation that it begins after reset. -/
theorem outcomeFollows_start {i : Instr} {s : State} (hi : isStart i = true) (hq : Quiescent s)
    (hm : s.mode = .idle) :
    OutcomeFollows (∃ img prof opts, i = .startFlash img prof opts) s.outs s.inq
      (exec i (resetOf s.params)) (exec i s) := by
  have h := follows_resetLike hq hm
  rw [← exec_start_resetLike hi]
  cases i with
  | startFlash img prof opts =>
    exact (outcomeFollows_startFlash img prof opts (quiescent_resetLike s) h).mono fun _ => trivial
  | startSync | startCommand =>
    exact (outcomeFollows_exec _ (quiescent_resetLike s) h).mono (by simp)
  | _ => cases hi

/-- Settles O58: both runs follow the one from reset. -/
theorem operationForgetsThePast : Obligations.OperationForgetsThePast := by
  intro s t s' i es hi hqs hqt hms hmt hparams hrun
  have hs := outcomeFollows_run_cons es (quiescent_resetOf s.params) (outcomeFollows_start hi hqs hms)
  have ht := outcomeFollows_run_cons es (quiescent_resetOf t.params) (outcomeFollows_start hi hqt hmt)
  rw [hrun] at hs
  obtain ⟨r, hr, hs⟩ := hs.exists_of_next_right
  rw [← hparams, hr] at ht
  obtain ⟨t', ht', ht⟩ := ht.exists_of_next_left
  obtain ⟨w, y, f, _, hin⟩ := hs
  obtain ⟨w', y', f', _, hin'⟩ := ht
  refine ⟨_, ht', ?_, rfl, rfl, rfl, fun hflash => ?_⟩
  · simp [behind, withRegisters]
  · obtain rfl := hin.flash (.inl hflash)
    obtain rfl := hin'.flash (.inl hflash)
    exact ⟨rfl, rfl, rfl⟩

end Sys2Proof.Machine
end
